-- ==== Sys2Proof/Word.lean ====
section
/-! DEFINITION. The two word types of the block (spec/00_scope.md R7, R12): bytes of 8 bits and addresses of 16 bits.
Their arithmetic is `BitVec`'s own, which wraps modulo 2^8 and 2^16 as R12 and R51 say. -/

namespace Sys2Proof

/-- An 8-bit value (R12: `u8`): a register, a memory byte, an opcode or operand byte. -/
abbrev Byte := BitVec 8

/-- A 16-bit value (R12: `u16`): an address, the program counter, an absolute operand word. -/
abbrev Word := BitVec 16

end Sys2Proof
end

