-- ==== Sys2Proof/Config.lean ====
section
/-! DEFINITION. What the host and the core hand each other at the trap port (spec/00_scope.md R10), and the FREE VALUES
of the model: what a host callback answers (spec/20_memory.md R57, R58) and what `special_event` holds outside a callback
(spec/10_state.md R32). A free value has no body, so no proof can see what it is.
The parameters of R7 that a test could show wrong stand in Sys2Proof/Machine/Params.lean. -/

namespace Sys2Proof

/-- The memory of one VM (R29, R50): the listed (address, byte) cells; every other address reads as
`Machine.Memory.unlisted`. The canonical form is `Machine.Memory.wf`. -/
abbrev Memory := List Host.Cell

/-- The six registers of spec/10_state.md R20 to R26. The VM record holds one such group and a call's working state
another (R35). -/
structure Regs where
  /-- program counter (R21) -/
  pc : Word
  /-- accumulator (R22) -/
  a : Byte
  /-- index register X (R23) -/
  x : Byte
  /-- index register Y (R23) -/
  y : Byte
  /-- stack pointer, page-relative (R24) -/
  s : Byte
  /-- flags N V U B D I Z C, bit 7 to bit 0 (R25, R26) -/
  p : Byte
  deriving DecidableEq, Repr, Inhabited

/-- The scratch fields the core passes a callback (R32). -/
structure SpecialEvent where
  address : Word
  value : Byte
  deriving DecidableEq, Repr, Inhabited

/-- What a callback hands back: the byte of a read (R57; not looked at after a write, R58) and the bytes of the VM's
memory it changed, in the order it changed them (R57, R58: any byte may change). -/
structure TrapAnswer where
  value : Byte
  pokes : List (Word × Byte)
  deriving DecidableEq, Repr, Inhabited

/-- One transaction of the trap port (R10), as the trap log keeps it. -/
inductive TrapEvent where
  /-- a read trap at `addr`, answered with `v` (R55) -/
  | read (addr : Word) (v : Byte)
  /-- a write trap of `v` at `addr` (R56) -/
  | write (addr : Word) (v : Byte)
  deriving DecidableEq, Repr

/-- FREE VALUE (log 5): what read callback `handler` answers, after the traps `log`, given what it can look at: the VM
record's registers and tick budget (R35: their entry values), the event and the memory (R57). -/
opaque Config.readCallback (handler : Option Nat) (log : List TrapEvent) (record : Regs) (tickBudget : Int)
    (event : SpecialEvent) (memory : Memory) : TrapAnswer

/-- FREE VALUE (log 5): what write callback `handler` does to memory (R58); its arguments are those of
`Config.readCallback`. -/
opaque Config.writeCallback (handler : Option Nat) (log : List TrapEvent) (record : Regs) (tickBudget : Int)
    (event : SpecialEvent) (memory : Memory) : TrapAnswer

/-- FREE VALUE (log 7): what `special_event` holds once the callback has returned ("outside a callback its content is
unspecified", R32), after the traps `log`. -/
opaque Config.specialEventAfterTrap (log : List TrapEvent) : SpecialEvent

end Sys2Proof
end

