-- ==== Sys2Proof/Machine/State.lean ====
section
/-! DEFINITION. The machine's state: the VM record of spec/10_state.md R20, the working state of a call in progress
(R35, spec/49_dispatch_loop.md R232), and two fields of the model's own for the trap port (log 5, log 6).
INVENTORY.md lists every field with its rule and its reset value. -/

namespace Sys2Proof.Machine

/-- The three exit statuses of a call (spec/49_dispatch_loop.md R237). -/
inductive ExitStatus where
  /-- the budget was used up: `budget <= 0` with `p != 0` -/
  | exhausted
  /-- the flags register was zero, the "core stopped" sentinel -/
  | stopped
  /-- an illegal opcode byte was fetched (R233) -/
  | haltedIllegalOpcode
  deriving DecidableEq, Repr

/-- What a call answers (spec/00_scope.md R9): `(ticks_consumed, status)`. -/
structure CallResult where
  ticksConsumed : Int
  status : ExitStatus
  deriving DecidableEq, Repr

/-- Where the machine is with respect to the execute port (R9, R232, R241). -/
inductive Phase where
  /-- between calls: the host has the VM record -/
  | idle
  /-- the host has issued `execute(ticks)`; the entry of R232 is the next step -/
  | entering (ticks : Int)
  /-- inside the call `execute(ticks)`: the loop of R243 is running -/
  | running (ticks : Int)
  deriving DecidableEq, Repr

/-- The whole state of one VM. -/
structure State where
  /-- the 65536 bytes (R29, R50); an unlisted address reads as `Memory.unlisted` -/
  memory : Memory
  /-- addresses at or above it drop core writes (R30, R54) -/
  romBoundary : Fin 65537
  /-- `special_range.start` (R31, R53) -/
  specialStart : Fin 65537
  /-- `special_range.end` (R31, R53) -/
  specialEnd : Fin 65537
  /-- the scratch fields for callbacks (R32) -/
  specialEvent : SpecialEvent
  /-- which host function is the read callback, none when it is absent (R33, R37) -/
  readCallback : Option Nat
  /-- which host function is the write callback, none when it is absent (R33, R37) -/
  writeCallback : Option Nat
  /-- the VM record's tick budget (R34) -/
  tickBudget : Int
  /-- the VM record's registers (R20): authoritative between calls only (R35) -/
  record : Regs
  /-- the working registers of the call in progress (R35) -/
  work : Regs
  /-- the working tick budget of the call in progress (R35, R232) -/
  budget : Int
  /-- where the machine is with respect to the execute port -/
  phase : Phase
  /-- what the last finished call answered (R9, R239); none before the first and during a call -/
  result : Option CallResult
  /-- the model's own (log 5): what the host's callbacks answer next, oldest first; when it is empty the answer is the
  free value of Config -/
  hostAnswers : List TrapAnswer
  /-- the model's own (log 6): the trap transactions so far, newest first (R10) -/
  trapLog : List TrapEvent
  deriving DecidableEq, Repr

/-- The reasons to stop with a fault. No step raises one: "No access faults" (spec/20_memory.md R61), and the events of
spec/60_exceptions.md R250 are next states. -/
inductive Fault where
  /-- Raised by the lifecycle port's `create` when the memory buffer cannot be obtained (spec/00_scope.md R11), never by
  a step. Safe: nothing runs. -/
  | outOfMemory
  deriving DecidableEq, Repr

/-- The reasons to refuse. -/
inductive Refusal where
  /-- Raised by an arm of `exec` whose instruction has no meaning yet; no arm does. Safe: nothing runs. -/
  | notModelled (mnemonic : String)
  /-- Raised by the step that enters a call when the host has not configured the VM: the special range is not in order,
  or it is not empty and a callback is absent (spec/70_reset_and_hazards.md R271, spec/10_state.md R37;
  spec/93_implementation_defined.md: "refuse a launch that leaves one unset"). Safe: nothing runs. -/
  | launchNotConfigured
  deriving DecidableEq, Repr

/-- The registers after `create`: the spec gives no value (R37, R270); log 1 names these, after
spec/90_conflicts.md C2. -/
def Regs.reset : Regs where
  pc := 0x0000
  a := 0x00
  x := 0x00
  y := 0x00
  s := 0x00
  p := 0x20

/-- The state right after `create`: between calls, nothing configured by the host yet. The spec gives no value for any
field (R37, R270); log 1 to log 4 name the values here. -/
def State.reset : State where
  memory := []
  romBoundary := 65536
  specialStart := 0
  specialEnd := 0
  specialEvent := { address := 0x0000, value := 0x00 }
  readCallback := none
  writeCallback := none
  tickBudget := 0
  record := Regs.reset
  work := Regs.reset
  budget := 0
  phase := .idle
  result := none
  hostAnswers := []
  trapLog := []

end Sys2Proof.Machine
end

