-- ==== Sys2Proof/Machine/Flags.lean ====
section
/-! DEFINITION. The flags of `p` (spec/10_state.md R25 to R27) and every flag computation of the spec: `setzn`, the bit
each shift moves out (spec/41 R113 to R116), BIT (R119), Compare (spec/42 R130), and the binary and decimal adder cores
(spec/43 R140 to R142). -/

namespace Sys2Proof.Machine

/-! ### The bits of `p` (R25) -/

/-- `p.N` -/
def flagN (p : Byte) : Bool := p.getLsbD 7
/-- `p.V` -/
def flagV (p : Byte) : Bool := p.getLsbD 6
/-- `p.U` -/
def flagU (p : Byte) : Bool := p.getLsbD 5
/-- `p.B` -/
def flagB (p : Byte) : Bool := p.getLsbD 4
/-- `p.D` -/
def flagD (p : Byte) : Bool := p.getLsbD 3
/-- `p.I` -/
def flagI (p : Byte) : Bool := p.getLsbD 2
/-- `p.Z` -/
def flagZ (p : Byte) : Bool := p.getLsbD 1
/-- `p.C` -/
def flagC (p : Byte) : Bool := p.getLsbD 0

/-- Writes the bits of `p` under a mask: all of them to 1 or all to 0. -/
def putMask (mask : Byte) (b : Bool) (p : Byte) : Byte :=
  if b then p ||| mask else p &&& ~~~mask

/-- `p.N <- b` -/
def putN (b : Bool) (p : Byte) : Byte := putMask 0x80 b p
/-- `p.V <- b` -/
def putV (b : Bool) (p : Byte) : Byte := putMask 0x40 b p
/-- `p.D <- b` -/
def putD (b : Bool) (p : Byte) : Byte := putMask 0x08 b p
/-- `p.I <- b` -/
def putI (b : Bool) (p : Byte) : Byte := putMask 0x04 b p
/-- `p.Z <- b` -/
def putZ (b : Bool) (p : Byte) : Byte := putMask 0x02 b p
/-- `p.C <- b` -/
def putC (b : Bool) (p : Byte) : Byte := putMask 0x01 b p

/-- `setzn(v)` (R27): Z is `v = 0`, N is bit 7 of `v`; no other bit changes. -/
def setzn (v p : Byte) : Byte := putN (v.getLsbD 7) (putZ (v = 0) p)

/-! ### Shifts: from the input byte and `p` to the result and the new `p` -/

/-- ASL (R113): C is bit 7 of the input, bit 0 of the result is 0. -/
def aslCore (v p : Byte) : Byte × Byte :=
  let r := v <<< 1
  (r, setzn r (putC (v.getLsbD 7) p))

/-- LSR (R114): C is bit 0 of the input, bit 7 of the result is 0. -/
def lsrCore (v p : Byte) : Byte × Byte :=
  let r := v >>> 1
  (r, setzn r (putC (v.getLsbD 0) p))

/-- ROL (R115): as ASL with the prior carry in bit 0. -/
def rolCore (v p : Byte) : Byte × Byte :=
  let r := (v <<< 1) ||| (if flagC p then 0x01 else 0x00)
  (r, setzn r (putC (v.getLsbD 7) p))

/-- ROR (R116): as LSR with the prior carry in bit 7. -/
def rorCore (v p : Byte) : Byte × Byte :=
  let r := (v >>> 1) ||| (if flagC p then 0x80 else 0x00)
  (r, setzn r (putC (v.getLsbD 0) p))

/-- INC (R117): adds 1 modulo 2^8; C and V are not touched. -/
def incCore (v p : Byte) : Byte × Byte :=
  let r := v + 1
  (r, setzn r p)

/-- DEC (R118): subtracts 1 modulo 2^8. -/
def decCore (v p : Byte) : Byte × Byte :=
  let r := v - 1
  (r, setzn r p)

/-- BIT (R119): N and V from bits 7 and 6 of the memory byte `m`, Z from `m & a`. -/
def bitFlags (a m p : Byte) : Byte :=
  putN (m.getLsbD 7) (putV (m.getLsbD 6) (putZ (m &&& a = 0) p))

/-- Compare (R130): C is `r >= m`, N and Z from the low byte of the exact difference. -/
def compareFlags (r m p : Byte) : Byte :=
  let d : Int := r.toNat - m.toNat
  setzn (BitVec.ofInt 8 d) (putC (0 ≤ d) p)

/-! ### The adder cores -/

/-- What an adder core answers (R140). -/
structure AluResult where
  r : Byte
  c : Bool
  v : Bool
  z : Bool
  n : Bool
  deriving DecidableEq, Repr

/-- A carry as a number. -/
def carryNat (cin : Bool) : Nat := if cin then 1 else 0

/-- `sext_8(b)` (spec/00_scope.md R12). -/
def sext8 (b : Byte) : Int := if b.getLsbD 7 then (b.toNat : Int) - 256 else b.toNat

/-- `AddBin(a, m, cin)` (R140). -/
def addBin (a m : Byte) (cin : Bool) : AluResult :=
  let sum := a.toNat + m.toNat + carryNat cin
  let r := BitVec.ofNat 8 sum
  { r := r
    c := 0xFF < sum
    v := (a ^^^ r) &&& (m ^^^ r) &&& 0x80 ≠ 0
    z := r = 0
    n := r.getLsbD 7 }

/-- `AddDec(a, m, cin)` (R141): N and V from the signed combination before the high-nibble correction, Z from the binary
sum, C from the corrected sum. -/
def addDec (a m : Byte) (cin : Bool) : AluResult :=
  let al0 := (a &&& 0x0F).toNat + (m &&& 0x0F).toNat + carryNat cin
  let al := if 0x0A ≤ al0 then (al0 + 0x06) % 16 + 0x10 else al0
  let t0 := (a &&& 0xF0).toNat + (m &&& 0xF0).toNat + al
  let t := if 0xA0 ≤ t0 then t0 + 0x60 else t0
  let ts : Int := sext8 (a &&& 0xF0) + sext8 (m &&& 0xF0) + al
  { r := BitVec.ofNat 8 t
    c := 0x100 ≤ t
    v := ts < -128 ∨ 127 < ts
    z := (a.toNat + m.toNat + carryNat cin) % 256 = 0
    n := (BitVec.ofInt 8 ts).getLsbD 7 }

/-- `SubDec(a, m, cin)` (R142): the nibble-wise corrected difference; every flag as in binary mode. `& 0x0F` on a
negative integer is its remainder modulo 16. -/
def subDec (a m : Byte) (cin : Bool) : AluResult :=
  let al0 : Int := (a &&& 0x0F).toNat - (m &&& 0x0F).toNat + carryNat cin - 1
  let al : Int := if al0 < 0 then (al0 - 0x06) % 16 - 0x10 else al0
  let t0 : Int := (a &&& 0xF0).toNat - (m &&& 0xF0).toNat + al
  let t : Int := if t0 < 0 then t0 - 0x60 else t0
  { addBin a (m ^^^ 0xFF) cin with r := BitVec.ofInt 8 t }

/-- ADC's result and flags (R143): decimal when `p.D` is set (R145). -/
def adcCore (a m p : Byte) : AluResult :=
  if flagD p then addDec a m (flagC p) else addBin a m (flagC p)

/-- SBC's result and flags (R144): decimal when `p.D` is set (R145). -/
def sbcCore (a m p : Byte) : AluResult :=
  if flagD p then subDec a m (flagC p) else addBin a (m ^^^ 0xFF) (flagC p)

/-- Writes the four flags of an adder core into `p` (R143, R144): N, V, Z, C; the others stay. -/
def aluFlags (res : AluResult) (p : Byte) : Byte :=
  putN res.n (putV res.v (putZ res.z (putC res.c p)))

end Sys2Proof.Machine
end

