-- ==== Sys2Proof/Syntax.lean ====
section
/-! DEFINITION. The instructions as syntax: one constructor of `Instr` for each of the 151 rows of
spec/opcode_table.json, with the row's mnemonic, addressing mode and operand (spec/30_encoding.md R80, R82, R95). -/

namespace Sys2Proof

/-- The 56 mnemonics of the documented NMOS 6502 set (spec/00_scope.md R2). -/
inductive Mnemonic where
  | ora | and | eor | asl | lsr | rol | ror | inc | dec | bit
  | cmp | cpx | cpy
  | adc | sbc
  | pha | pla | php | plp | jsr | rts | brk | rti
  | bpl | bmi | bvc | bvs | bcc | bcs | bne | beq | jmp
  | tax | txa | tay | tya | tsx | txs | inx | iny | dex | dey
  | lda | ldx | ldy | sta | stx | sty | clc | sec | cli | sei | clv | cld | sed | nop
  deriving DecidableEq, Repr

/-- The addressing modes of spec/30_encoding.md R82, by their short names. -/
inductive Mode where
  | imm | zp | zpX | zpY | abs | absX | absY | indX | indY | ind | rel | acc | implied
  deriving DecidableEq, Repr

/-- An operand that the resolver turns into an effective address (R82: the modes that yield `EA`), with the operand
byte or word the instruction holds. -/
inductive Ea where
  /-- zero page (R84) -/
  | zp (b : Byte)
  /-- zero page,X (R85) -/
  | zpX (b : Byte)
  /-- zero page,Y (R85) -/
  | zpY (b : Byte)
  /-- absolute (R86) -/
  | abs (w : Word)
  /-- absolute,X (R87) -/
  | absX (w : Word)
  /-- absolute,Y (R87) -/
  | absY (w : Word)
  /-- indirect,X (R88) -/
  | indX (b : Byte)
  /-- indirect,Y (R89) -/
  | indY (b : Byte)
  /-- indirect, JMP only (R90) -/
  | ind (w : Word)
  /-- relative, the branches (R91): the signed displacement byte -/
  | rel (b : Byte)
  deriving DecidableEq, Repr

/-- An operand as the instruction holds it: what the resolver yields is `Imm`, `EA`, `Acc` or `None` (R82). -/
inductive Operand where
  /-- immediate (R83) -/
  | imm (b : Byte)
  /-- an addressing mode with an effective address -/
  | mem (e : Ea)
  /-- accumulator (R92) -/
  | acc
  /-- implied (R92) -/
  | implied
  deriving DecidableEq, Repr

/-- The instructions, one constructor for each row of spec/opcode_table.json, in the families' order of spec/INDEX.md.
`b` is operand byte 1; `w` is the 16-bit word of operand bytes 1 (low) and 2 (high). -/
inductive Instr where
  -- ORA (R110)
  | oraIndX (b : Byte)
  | oraZp (b : Byte)
  | oraImm (b : Byte)
  | oraAbs (w : Word)
  | oraIndY (b : Byte)
  | oraZpX (b : Byte)
  | oraAbsY (w : Word)
  | oraAbsX (w : Word)
  -- AND (R111)
  | andIndX (b : Byte)
  | andZp (b : Byte)
  | andImm (b : Byte)
  | andAbs (w : Word)
  | andIndY (b : Byte)
  | andZpX (b : Byte)
  | andAbsY (w : Word)
  | andAbsX (w : Word)
  -- EOR (R112)
  | eorIndX (b : Byte)
  | eorZp (b : Byte)
  | eorImm (b : Byte)
  | eorAbs (w : Word)
  | eorIndY (b : Byte)
  | eorZpX (b : Byte)
  | eorAbsY (w : Word)
  | eorAbsX (w : Word)
  -- ASL (R113)
  | aslZp (b : Byte)
  | aslAcc
  | aslAbs (w : Word)
  | aslZpX (b : Byte)
  | aslAbsX (w : Word)
  -- LSR (R114)
  | lsrZp (b : Byte)
  | lsrAcc
  | lsrAbs (w : Word)
  | lsrZpX (b : Byte)
  | lsrAbsX (w : Word)
  -- ROL (R115)
  | rolZp (b : Byte)
  | rolAcc
  | rolAbs (w : Word)
  | rolZpX (b : Byte)
  | rolAbsX (w : Word)
  -- ROR (R116)
  | rorZp (b : Byte)
  | rorAcc
  | rorAbs (w : Word)
  | rorZpX (b : Byte)
  | rorAbsX (w : Word)
  -- INC (R117)
  | incZp (b : Byte)
  | incAbs (w : Word)
  | incZpX (b : Byte)
  | incAbsX (w : Word)
  -- DEC (R118)
  | decZp (b : Byte)
  | decAbs (w : Word)
  | decZpX (b : Byte)
  | decAbsX (w : Word)
  -- BIT (R119)
  | bitZp (b : Byte)
  | bitAbs (w : Word)
  -- CMP (R131)
  | cmpIndX (b : Byte)
  | cmpZp (b : Byte)
  | cmpImm (b : Byte)
  | cmpAbs (w : Word)
  | cmpIndY (b : Byte)
  | cmpZpX (b : Byte)
  | cmpAbsY (w : Word)
  | cmpAbsX (w : Word)
  -- CPX (R132)
  | cpxImm (b : Byte)
  | cpxZp (b : Byte)
  | cpxAbs (w : Word)
  -- CPY (R133)
  | cpyImm (b : Byte)
  | cpyZp (b : Byte)
  | cpyAbs (w : Word)
  -- ADC (R143)
  | adcIndX (b : Byte)
  | adcZp (b : Byte)
  | adcImm (b : Byte)
  | adcAbs (w : Word)
  | adcIndY (b : Byte)
  | adcZpX (b : Byte)
  | adcAbsY (w : Word)
  | adcAbsX (w : Word)
  -- SBC (R144)
  | sbcIndX (b : Byte)
  | sbcZp (b : Byte)
  | sbcImm (b : Byte)
  | sbcAbs (w : Word)
  | sbcIndY (b : Byte)
  | sbcZpX (b : Byte)
  | sbcAbsY (w : Word)
  | sbcAbsX (w : Word)
  -- PHA (R160)
  | pha
  -- PLA (R161)
  | pla
  -- PHP (R162)
  | php
  -- PLP (R163)
  | plp
  -- JSR (R164)
  | jsr (w : Word)
  -- RTS (R165)
  | rts
  -- BRK (R166)
  | brk
  -- RTI (R167)
  | rti
  -- BPL (R181)
  | bpl (b : Byte)
  -- BMI (R182)
  | bmi (b : Byte)
  -- BVC (R183)
  | bvc (b : Byte)
  -- BVS (R184)
  | bvs (b : Byte)
  -- BCC (R185)
  | bcc (b : Byte)
  -- BCS (R186)
  | bcs (b : Byte)
  -- BNE (R187)
  | bne (b : Byte)
  -- BEQ (R188)
  | beq (b : Byte)
  -- JMP (R189)
  | jmpAbs (w : Word)
  | jmpInd (w : Word)
  -- TAX (R190)
  | tax
  -- TXA (R191)
  | txa
  -- TAY (R192)
  | tay
  -- TYA (R193)
  | tya
  -- TSX (R194)
  | tsx
  -- TXS (R195)
  | txs
  -- INX (R196)
  | inx
  -- INY (R197)
  | iny
  -- DEX (R198)
  | dex
  -- DEY (R199)
  | dey
  -- LDA (R210)
  | ldaIndX (b : Byte)
  | ldaZp (b : Byte)
  | ldaImm (b : Byte)
  | ldaAbs (w : Word)
  | ldaIndY (b : Byte)
  | ldaZpX (b : Byte)
  | ldaAbsY (w : Word)
  | ldaAbsX (w : Word)
  -- LDX (R211)
  | ldxImm (b : Byte)
  | ldxZp (b : Byte)
  | ldxAbs (w : Word)
  | ldxZpY (b : Byte)
  | ldxAbsY (w : Word)
  -- LDY (R212)
  | ldyImm (b : Byte)
  | ldyZp (b : Byte)
  | ldyAbs (w : Word)
  | ldyZpX (b : Byte)
  | ldyAbsX (w : Word)
  -- STA (R213)
  | staIndX (b : Byte)
  | staZp (b : Byte)
  | staAbs (w : Word)
  | staIndY (b : Byte)
  | staZpX (b : Byte)
  | staAbsY (w : Word)
  | staAbsX (w : Word)
  -- STX (R214)
  | stxZp (b : Byte)
  | stxAbs (w : Word)
  | stxZpY (b : Byte)
  -- STY (R215)
  | styZp (b : Byte)
  | styAbs (w : Word)
  | styZpX (b : Byte)
  -- CLC (R216)
  | clc
  -- SEC (R217)
  | sec
  -- CLI (R218)
  | cli
  -- SEI (R219)
  | sei
  -- CLV (R220)
  | clv
  -- CLD (R221)
  | cld
  -- SED (R222)
  | sed
  -- NOP (R223)
  | nop
  deriving DecidableEq, Repr

/-- The addressing mode of an effective-address operand. -/
def Ea.mode : Ea → Mode
  | .zp _ => .zp
  | .zpX _ => .zpX
  | .zpY _ => .zpY
  | .abs _ => .abs
  | .absX _ => .absX
  | .absY _ => .absY
  | .indX _ => .indX
  | .indY _ => .indY
  | .ind _ => .ind
  | .rel _ => .rel

/-- The addressing mode of an operand. -/
def Operand.mode : Operand → Mode
  | .imm _ => .imm
  | .mem e => e.mode
  | .acc => .acc
  | .implied => .implied

/-- The mnemonic of an instruction: its row's `mnemonic` in spec/opcode_table.json. -/
def Instr.mnemonic : Instr → Mnemonic
  | .oraIndX _ => .ora
  | .oraZp _ => .ora
  | .oraImm _ => .ora
  | .oraAbs _ => .ora
  | .oraIndY _ => .ora
  | .oraZpX _ => .ora
  | .oraAbsY _ => .ora
  | .oraAbsX _ => .ora
  | .andIndX _ => .and
  | .andZp _ => .and
  | .andImm _ => .and
  | .andAbs _ => .and
  | .andIndY _ => .and
  | .andZpX _ => .and
  | .andAbsY _ => .and
  | .andAbsX _ => .and
  | .eorIndX _ => .eor
  | .eorZp _ => .eor
  | .eorImm _ => .eor
  | .eorAbs _ => .eor
  | .eorIndY _ => .eor
  | .eorZpX _ => .eor
  | .eorAbsY _ => .eor
  | .eorAbsX _ => .eor
  | .aslZp _ => .asl
  | .aslAcc => .asl
  | .aslAbs _ => .asl
  | .aslZpX _ => .asl
  | .aslAbsX _ => .asl
  | .lsrZp _ => .lsr
  | .lsrAcc => .lsr
  | .lsrAbs _ => .lsr
  | .lsrZpX _ => .lsr
  | .lsrAbsX _ => .lsr
  | .rolZp _ => .rol
  | .rolAcc => .rol
  | .rolAbs _ => .rol
  | .rolZpX _ => .rol
  | .rolAbsX _ => .rol
  | .rorZp _ => .ror
  | .rorAcc => .ror
  | .rorAbs _ => .ror
  | .rorZpX _ => .ror
  | .rorAbsX _ => .ror
  | .incZp _ => .inc
  | .incAbs _ => .inc
  | .incZpX _ => .inc
  | .incAbsX _ => .inc
  | .decZp _ => .dec
  | .decAbs _ => .dec
  | .decZpX _ => .dec
  | .decAbsX _ => .dec
  | .bitZp _ => .bit
  | .bitAbs _ => .bit
  | .cmpIndX _ => .cmp
  | .cmpZp _ => .cmp
  | .cmpImm _ => .cmp
  | .cmpAbs _ => .cmp
  | .cmpIndY _ => .cmp
  | .cmpZpX _ => .cmp
  | .cmpAbsY _ => .cmp
  | .cmpAbsX _ => .cmp
  | .cpxImm _ => .cpx
  | .cpxZp _ => .cpx
  | .cpxAbs _ => .cpx
  | .cpyImm _ => .cpy
  | .cpyZp _ => .cpy
  | .cpyAbs _ => .cpy
  | .adcIndX _ => .adc
  | .adcZp _ => .adc
  | .adcImm _ => .adc
  | .adcAbs _ => .adc
  | .adcIndY _ => .adc
  | .adcZpX _ => .adc
  | .adcAbsY _ => .adc
  | .adcAbsX _ => .adc
  | .sbcIndX _ => .sbc
  | .sbcZp _ => .sbc
  | .sbcImm _ => .sbc
  | .sbcAbs _ => .sbc
  | .sbcIndY _ => .sbc
  | .sbcZpX _ => .sbc
  | .sbcAbsY _ => .sbc
  | .sbcAbsX _ => .sbc
  | .pha => .pha
  | .pla => .pla
  | .php => .php
  | .plp => .plp
  | .jsr _ => .jsr
  | .rts => .rts
  | .brk => .brk
  | .rti => .rti
  | .bpl _ => .bpl
  | .bmi _ => .bmi
  | .bvc _ => .bvc
  | .bvs _ => .bvs
  | .bcc _ => .bcc
  | .bcs _ => .bcs
  | .bne _ => .bne
  | .beq _ => .beq
  | .jmpAbs _ => .jmp
  | .jmpInd _ => .jmp
  | .tax => .tax
  | .txa => .txa
  | .tay => .tay
  | .tya => .tya
  | .tsx => .tsx
  | .txs => .txs
  | .inx => .inx
  | .iny => .iny
  | .dex => .dex
  | .dey => .dey
  | .ldaIndX _ => .lda
  | .ldaZp _ => .lda
  | .ldaImm _ => .lda
  | .ldaAbs _ => .lda
  | .ldaIndY _ => .lda
  | .ldaZpX _ => .lda
  | .ldaAbsY _ => .lda
  | .ldaAbsX _ => .lda
  | .ldxImm _ => .ldx
  | .ldxZp _ => .ldx
  | .ldxAbs _ => .ldx
  | .ldxZpY _ => .ldx
  | .ldxAbsY _ => .ldx
  | .ldyImm _ => .ldy
  | .ldyZp _ => .ldy
  | .ldyAbs _ => .ldy
  | .ldyZpX _ => .ldy
  | .ldyAbsX _ => .ldy
  | .staIndX _ => .sta
  | .staZp _ => .sta
  | .staAbs _ => .sta
  | .staIndY _ => .sta
  | .staZpX _ => .sta
  | .staAbsY _ => .sta
  | .staAbsX _ => .sta
  | .stxZp _ => .stx
  | .stxAbs _ => .stx
  | .stxZpY _ => .stx
  | .styZp _ => .sty
  | .styAbs _ => .sty
  | .styZpX _ => .sty
  | .clc => .clc
  | .sec => .sec
  | .cli => .cli
  | .sei => .sei
  | .clv => .clv
  | .cld => .cld
  | .sed => .sed
  | .nop => .nop

/-- The operand of an instruction: its row's addressing mode (field `mode` of spec/opcode_table.json) with the operand
bytes the instruction holds. -/
def Instr.operand : Instr → Operand
  | .oraIndX b => .mem (.indX b)
  | .oraZp b => .mem (.zp b)
  | .oraImm b => .imm b
  | .oraAbs w => .mem (.abs w)
  | .oraIndY b => .mem (.indY b)
  | .oraZpX b => .mem (.zpX b)
  | .oraAbsY w => .mem (.absY w)
  | .oraAbsX w => .mem (.absX w)
  | .andIndX b => .mem (.indX b)
  | .andZp b => .mem (.zp b)
  | .andImm b => .imm b
  | .andAbs w => .mem (.abs w)
  | .andIndY b => .mem (.indY b)
  | .andZpX b => .mem (.zpX b)
  | .andAbsY w => .mem (.absY w)
  | .andAbsX w => .mem (.absX w)
  | .eorIndX b => .mem (.indX b)
  | .eorZp b => .mem (.zp b)
  | .eorImm b => .imm b
  | .eorAbs w => .mem (.abs w)
  | .eorIndY b => .mem (.indY b)
  | .eorZpX b => .mem (.zpX b)
  | .eorAbsY w => .mem (.absY w)
  | .eorAbsX w => .mem (.absX w)
  | .aslZp b => .mem (.zp b)
  | .aslAcc => .acc
  | .aslAbs w => .mem (.abs w)
  | .aslZpX b => .mem (.zpX b)
  | .aslAbsX w => .mem (.absX w)
  | .lsrZp b => .mem (.zp b)
  | .lsrAcc => .acc
  | .lsrAbs w => .mem (.abs w)
  | .lsrZpX b => .mem (.zpX b)
  | .lsrAbsX w => .mem (.absX w)
  | .rolZp b => .mem (.zp b)
  | .rolAcc => .acc
  | .rolAbs w => .mem (.abs w)
  | .rolZpX b => .mem (.zpX b)
  | .rolAbsX w => .mem (.absX w)
  | .rorZp b => .mem (.zp b)
  | .rorAcc => .acc
  | .rorAbs w => .mem (.abs w)
  | .rorZpX b => .mem (.zpX b)
  | .rorAbsX w => .mem (.absX w)
  | .incZp b => .mem (.zp b)
  | .incAbs w => .mem (.abs w)
  | .incZpX b => .mem (.zpX b)
  | .incAbsX w => .mem (.absX w)
  | .decZp b => .mem (.zp b)
  | .decAbs w => .mem (.abs w)
  | .decZpX b => .mem (.zpX b)
  | .decAbsX w => .mem (.absX w)
  | .bitZp b => .mem (.zp b)
  | .bitAbs w => .mem (.abs w)
  | .cmpIndX b => .mem (.indX b)
  | .cmpZp b => .mem (.zp b)
  | .cmpImm b => .imm b
  | .cmpAbs w => .mem (.abs w)
  | .cmpIndY b => .mem (.indY b)
  | .cmpZpX b => .mem (.zpX b)
  | .cmpAbsY w => .mem (.absY w)
  | .cmpAbsX w => .mem (.absX w)
  | .cpxImm b => .imm b
  | .cpxZp b => .mem (.zp b)
  | .cpxAbs w => .mem (.abs w)
  | .cpyImm b => .imm b
  | .cpyZp b => .mem (.zp b)
  | .cpyAbs w => .mem (.abs w)
  | .adcIndX b => .mem (.indX b)
  | .adcZp b => .mem (.zp b)
  | .adcImm b => .imm b
  | .adcAbs w => .mem (.abs w)
  | .adcIndY b => .mem (.indY b)
  | .adcZpX b => .mem (.zpX b)
  | .adcAbsY w => .mem (.absY w)
  | .adcAbsX w => .mem (.absX w)
  | .sbcIndX b => .mem (.indX b)
  | .sbcZp b => .mem (.zp b)
  | .sbcImm b => .imm b
  | .sbcAbs w => .mem (.abs w)
  | .sbcIndY b => .mem (.indY b)
  | .sbcZpX b => .mem (.zpX b)
  | .sbcAbsY w => .mem (.absY w)
  | .sbcAbsX w => .mem (.absX w)
  | .pha => .implied
  | .pla => .implied
  | .php => .implied
  | .plp => .implied
  | .jsr w => .mem (.abs w)
  | .rts => .implied
  | .brk => .implied
  | .rti => .implied
  | .bpl b => .mem (.rel b)
  | .bmi b => .mem (.rel b)
  | .bvc b => .mem (.rel b)
  | .bvs b => .mem (.rel b)
  | .bcc b => .mem (.rel b)
  | .bcs b => .mem (.rel b)
  | .bne b => .mem (.rel b)
  | .beq b => .mem (.rel b)
  | .jmpAbs w => .mem (.abs w)
  | .jmpInd w => .mem (.ind w)
  | .tax => .implied
  | .txa => .implied
  | .tay => .implied
  | .tya => .implied
  | .tsx => .implied
  | .txs => .implied
  | .inx => .implied
  | .iny => .implied
  | .dex => .implied
  | .dey => .implied
  | .ldaIndX b => .mem (.indX b)
  | .ldaZp b => .mem (.zp b)
  | .ldaImm b => .imm b
  | .ldaAbs w => .mem (.abs w)
  | .ldaIndY b => .mem (.indY b)
  | .ldaZpX b => .mem (.zpX b)
  | .ldaAbsY w => .mem (.absY w)
  | .ldaAbsX w => .mem (.absX w)
  | .ldxImm b => .imm b
  | .ldxZp b => .mem (.zp b)
  | .ldxAbs w => .mem (.abs w)
  | .ldxZpY b => .mem (.zpY b)
  | .ldxAbsY w => .mem (.absY w)
  | .ldyImm b => .imm b
  | .ldyZp b => .mem (.zp b)
  | .ldyAbs w => .mem (.abs w)
  | .ldyZpX b => .mem (.zpX b)
  | .ldyAbsX w => .mem (.absX w)
  | .staIndX b => .mem (.indX b)
  | .staZp b => .mem (.zp b)
  | .staAbs w => .mem (.abs w)
  | .staIndY b => .mem (.indY b)
  | .staZpX b => .mem (.zpX b)
  | .staAbsY w => .mem (.absY w)
  | .staAbsX w => .mem (.absX w)
  | .stxZp b => .mem (.zp b)
  | .stxAbs w => .mem (.abs w)
  | .stxZpY b => .mem (.zpY b)
  | .styZp b => .mem (.zp b)
  | .styAbs w => .mem (.abs w)
  | .styZpX b => .mem (.zpX b)
  | .clc => .implied
  | .sec => .implied
  | .cli => .implied
  | .sei => .implied
  | .clv => .implied
  | .cld => .implied
  | .sed => .implied
  | .nop => .implied

end Sys2Proof
end

