-- ==== Sys2Proof/WellFormed.lean ====
section
/-! DEFINITION. Which operands each mnemonic takes, from the "Operands" line of each instruction's rule
(spec/41 to 47). An assembly form, a mnemonic with an operand, is well formed when its rule gives the mnemonic that
addressing mode; every other form has no opcode byte (spec/30_encoding.md R95, R96: STA #, STX abs,Y and the like are
illegal). An `Instr` is well formed when its own form is. -/

namespace Sys2Proof

/-- The eight modes of ORA (R110), which AND, EOR, CMP, ADC, SBC and LDA share (R111, R112, R131, R143, R144, R210). -/
def Mode.readGroup : List Mode := [.imm, .zp, .zpX, .abs, .absX, .absY, .indX, .indY]

/-- The memory modes of the shifts, INC and DEC (R113, R117). -/
def Mode.modifyGroup : List Mode := [.zp, .zpX, .abs, .absX]

/-- The addressing modes a mnemonic takes. -/
def Mnemonic.modes : Mnemonic → List Mode
  | .ora | .and | .eor | .adc | .sbc | .cmp | .lda => Mode.readGroup
  | .asl | .lsr | .rol | .ror => .acc :: Mode.modifyGroup
  | .inc | .dec => Mode.modifyGroup
  | .bit => [.zp, .abs]
  | .cpx | .cpy => [.imm, .zp, .abs]
  | .ldx => [.imm, .zp, .zpY, .abs, .absY]
  | .ldy => [.imm, .zp, .zpX, .abs, .absX]
  | .sta => [.zp, .zpX, .abs, .absX, .absY, .indX, .indY]
  | .stx => [.zp, .zpY, .abs]
  | .sty => [.zp, .zpX, .abs]
  | .jsr => [.abs]
  | .jmp => [.abs, .ind]
  | .bpl | .bmi | .bvc | .bvs | .bcc | .bcs | .bne | .beq => [.rel]
  | .pha | .pla | .php | .plp | .rts | .brk | .rti => [.implied]
  | .tax | .txa | .tay | .tya | .tsx | .txs | .inx | .iny | .dex | .dey => [.implied]
  | .clc | .sec | .cli | .sei | .clv | .cld | .sed | .nop => [.implied]

/-- An assembly form (spec/30_encoding.md R98): a mnemonic and an operand, whether or not an opcode byte stands for it. -/
structure Form where
  mnemonic : Mnemonic
  operand : Operand
  deriving DecidableEq, Repr

/-- The rule of the form's mnemonic gives it the form's addressing mode. -/
def Form.wellFormed (f : Form) : Bool :=
  f.mnemonic.modes.contains f.operand.mode

/-- The form of an instruction. -/
def Instr.form (i : Instr) : Form where
  mnemonic := i.mnemonic
  operand := i.operand

/-- An instruction is well formed when its form is. (Every `Instr` is: `Laws.Instr.wellFormed`; a form that is not well
formed has no `Instr`.) -/
def Instr.wellFormed (i : Instr) : Bool := i.form.wellFormed

end Sys2Proof
end

