-- ==== Sys2Proof/Decode.lean ====
section
/-! DEFINITION. From bytes to instructions and back. The dispatch table of spec/49_dispatch_loop.md R230 and R231 (the
map of spec/30_encoding.md R95, row by row, with the `cycles` of spec/opcode_table.json), the decoder, total on any bytes,
and after it the encoder, written from the "Encoding" lines of the rules of spec/41 to 47. -/

namespace Sys2Proof

/-- `{hi, lo}` (spec/00_scope.md R12): the 16-bit word with these two bytes. -/
def wordOf (hi lo : Byte) : Word := hi ++ lo

/-- The high byte `w[15:8]` (R12). -/
def hiByte (w : Word) : Byte := w.extractLsb' 8 8

/-- The low byte `w[7:0]` (R12). -/
def loByte (w : Word) : Byte := w.extractLsb' 0 8

/-- How many operand bytes follow the opcode byte in each mode (R82: the column "bytes", less one). -/
def Mode.operandBytes : Mode → Nat
  | .imm | .zp | .zpX | .zpY | .indX | .indY | .rel => 1
  | .abs | .absX | .absY | .ind => 2
  | .acc | .implied => 0

/-- One assigned entry of the dispatch table (R230): the opcode byte, `(cycle_cost, addressing_mode, operation)`, and the
instruction that the operand bytes 1 and 2 make of it (a byte the mode does not have is not looked at). -/
structure TableRow where
  opcode : Byte
  cycles : Nat
  mode : Mode
  mnemonic : Mnemonic
  build : Byte → Byte → Instr

/-- Row 0x of the map of R95. -/
def tableRows0x : List TableRow := [
  ⟨0x00, 7, .implied, .brk, fun _ _ => .brk⟩,
  ⟨0x01, 6, .indX, .ora, fun b _ => .oraIndX b⟩,
  ⟨0x05, 3, .zp, .ora, fun b _ => .oraZp b⟩,
  ⟨0x06, 5, .zp, .asl, fun b _ => .aslZp b⟩,
  ⟨0x08, 3, .implied, .php, fun _ _ => .php⟩,
  ⟨0x09, 2, .imm, .ora, fun b _ => .oraImm b⟩,
  ⟨0x0A, 2, .acc, .asl, fun _ _ => .aslAcc⟩,
  ⟨0x0D, 4, .abs, .ora, fun lo hi => .oraAbs (wordOf hi lo)⟩,
  ⟨0x0E, 6, .abs, .asl, fun lo hi => .aslAbs (wordOf hi lo)⟩]

/-- Row 1x of the map of R95. -/
def tableRows1x : List TableRow := [
  ⟨0x10, 2, .rel, .bpl, fun b _ => .bpl b⟩,
  ⟨0x11, 5, .indY, .ora, fun b _ => .oraIndY b⟩,
  ⟨0x15, 4, .zpX, .ora, fun b _ => .oraZpX b⟩,
  ⟨0x16, 6, .zpX, .asl, fun b _ => .aslZpX b⟩,
  ⟨0x18, 2, .implied, .clc, fun _ _ => .clc⟩,
  ⟨0x19, 4, .absY, .ora, fun lo hi => .oraAbsY (wordOf hi lo)⟩,
  ⟨0x1D, 4, .absX, .ora, fun lo hi => .oraAbsX (wordOf hi lo)⟩,
  ⟨0x1E, 7, .absX, .asl, fun lo hi => .aslAbsX (wordOf hi lo)⟩]

/-- Row 2x of the map of R95. -/
def tableRows2x : List TableRow := [
  ⟨0x20, 6, .abs, .jsr, fun lo hi => .jsr (wordOf hi lo)⟩,
  ⟨0x21, 6, .indX, .and, fun b _ => .andIndX b⟩,
  ⟨0x24, 3, .zp, .bit, fun b _ => .bitZp b⟩,
  ⟨0x25, 3, .zp, .and, fun b _ => .andZp b⟩,
  ⟨0x26, 5, .zp, .rol, fun b _ => .rolZp b⟩,
  ⟨0x28, 4, .implied, .plp, fun _ _ => .plp⟩,
  ⟨0x29, 2, .imm, .and, fun b _ => .andImm b⟩,
  ⟨0x2A, 2, .acc, .rol, fun _ _ => .rolAcc⟩,
  ⟨0x2C, 4, .abs, .bit, fun lo hi => .bitAbs (wordOf hi lo)⟩,
  ⟨0x2D, 4, .abs, .and, fun lo hi => .andAbs (wordOf hi lo)⟩,
  ⟨0x2E, 6, .abs, .rol, fun lo hi => .rolAbs (wordOf hi lo)⟩]

/-- Row 3x of the map of R95. -/
def tableRows3x : List TableRow := [
  ⟨0x30, 2, .rel, .bmi, fun b _ => .bmi b⟩,
  ⟨0x31, 5, .indY, .and, fun b _ => .andIndY b⟩,
  ⟨0x35, 4, .zpX, .and, fun b _ => .andZpX b⟩,
  ⟨0x36, 6, .zpX, .rol, fun b _ => .rolZpX b⟩,
  ⟨0x38, 2, .implied, .sec, fun _ _ => .sec⟩,
  ⟨0x39, 4, .absY, .and, fun lo hi => .andAbsY (wordOf hi lo)⟩,
  ⟨0x3D, 4, .absX, .and, fun lo hi => .andAbsX (wordOf hi lo)⟩,
  ⟨0x3E, 7, .absX, .rol, fun lo hi => .rolAbsX (wordOf hi lo)⟩]

/-- Row 4x of the map of R95. -/
def tableRows4x : List TableRow := [
  ⟨0x40, 6, .implied, .rti, fun _ _ => .rti⟩,
  ⟨0x41, 6, .indX, .eor, fun b _ => .eorIndX b⟩,
  ⟨0x45, 3, .zp, .eor, fun b _ => .eorZp b⟩,
  ⟨0x46, 5, .zp, .lsr, fun b _ => .lsrZp b⟩,
  ⟨0x48, 3, .implied, .pha, fun _ _ => .pha⟩,
  ⟨0x49, 2, .imm, .eor, fun b _ => .eorImm b⟩,
  ⟨0x4A, 2, .acc, .lsr, fun _ _ => .lsrAcc⟩,
  ⟨0x4C, 3, .abs, .jmp, fun lo hi => .jmpAbs (wordOf hi lo)⟩,
  ⟨0x4D, 4, .abs, .eor, fun lo hi => .eorAbs (wordOf hi lo)⟩,
  ⟨0x4E, 6, .abs, .lsr, fun lo hi => .lsrAbs (wordOf hi lo)⟩]

/-- Row 5x of the map of R95. -/
def tableRows5x : List TableRow := [
  ⟨0x50, 2, .rel, .bvc, fun b _ => .bvc b⟩,
  ⟨0x51, 5, .indY, .eor, fun b _ => .eorIndY b⟩,
  ⟨0x55, 4, .zpX, .eor, fun b _ => .eorZpX b⟩,
  ⟨0x56, 6, .zpX, .lsr, fun b _ => .lsrZpX b⟩,
  ⟨0x58, 2, .implied, .cli, fun _ _ => .cli⟩,
  ⟨0x59, 4, .absY, .eor, fun lo hi => .eorAbsY (wordOf hi lo)⟩,
  ⟨0x5D, 4, .absX, .eor, fun lo hi => .eorAbsX (wordOf hi lo)⟩,
  ⟨0x5E, 7, .absX, .lsr, fun lo hi => .lsrAbsX (wordOf hi lo)⟩]

/-- Row 6x of the map of R95. -/
def tableRows6x : List TableRow := [
  ⟨0x60, 6, .implied, .rts, fun _ _ => .rts⟩,
  ⟨0x61, 6, .indX, .adc, fun b _ => .adcIndX b⟩,
  ⟨0x65, 3, .zp, .adc, fun b _ => .adcZp b⟩,
  ⟨0x66, 5, .zp, .ror, fun b _ => .rorZp b⟩,
  ⟨0x68, 4, .implied, .pla, fun _ _ => .pla⟩,
  ⟨0x69, 2, .imm, .adc, fun b _ => .adcImm b⟩,
  ⟨0x6A, 2, .acc, .ror, fun _ _ => .rorAcc⟩,
  ⟨0x6C, 5, .ind, .jmp, fun lo hi => .jmpInd (wordOf hi lo)⟩,
  ⟨0x6D, 4, .abs, .adc, fun lo hi => .adcAbs (wordOf hi lo)⟩,
  ⟨0x6E, 6, .abs, .ror, fun lo hi => .rorAbs (wordOf hi lo)⟩]

/-- Row 7x of the map of R95. -/
def tableRows7x : List TableRow := [
  ⟨0x70, 2, .rel, .bvs, fun b _ => .bvs b⟩,
  ⟨0x71, 5, .indY, .adc, fun b _ => .adcIndY b⟩,
  ⟨0x75, 4, .zpX, .adc, fun b _ => .adcZpX b⟩,
  ⟨0x76, 6, .zpX, .ror, fun b _ => .rorZpX b⟩,
  ⟨0x78, 2, .implied, .sei, fun _ _ => .sei⟩,
  ⟨0x79, 4, .absY, .adc, fun lo hi => .adcAbsY (wordOf hi lo)⟩,
  ⟨0x7D, 4, .absX, .adc, fun lo hi => .adcAbsX (wordOf hi lo)⟩,
  ⟨0x7E, 7, .absX, .ror, fun lo hi => .rorAbsX (wordOf hi lo)⟩]

/-- Row 8x of the map of R95. -/
def tableRows8x : List TableRow := [
  ⟨0x81, 6, .indX, .sta, fun b _ => .staIndX b⟩,
  ⟨0x84, 3, .zp, .sty, fun b _ => .styZp b⟩,
  ⟨0x85, 3, .zp, .sta, fun b _ => .staZp b⟩,
  ⟨0x86, 3, .zp, .stx, fun b _ => .stxZp b⟩,
  ⟨0x88, 2, .implied, .dey, fun _ _ => .dey⟩,
  ⟨0x8A, 2, .implied, .txa, fun _ _ => .txa⟩,
  ⟨0x8C, 4, .abs, .sty, fun lo hi => .styAbs (wordOf hi lo)⟩,
  ⟨0x8D, 4, .abs, .sta, fun lo hi => .staAbs (wordOf hi lo)⟩,
  ⟨0x8E, 4, .abs, .stx, fun lo hi => .stxAbs (wordOf hi lo)⟩]

/-- Row 9x of the map of R95. -/
def tableRows9x : List TableRow := [
  ⟨0x90, 2, .rel, .bcc, fun b _ => .bcc b⟩,
  ⟨0x91, 6, .indY, .sta, fun b _ => .staIndY b⟩,
  ⟨0x94, 4, .zpX, .sty, fun b _ => .styZpX b⟩,
  ⟨0x95, 4, .zpX, .sta, fun b _ => .staZpX b⟩,
  ⟨0x96, 4, .zpY, .stx, fun b _ => .stxZpY b⟩,
  ⟨0x98, 2, .implied, .tya, fun _ _ => .tya⟩,
  ⟨0x99, 5, .absY, .sta, fun lo hi => .staAbsY (wordOf hi lo)⟩,
  ⟨0x9A, 2, .implied, .txs, fun _ _ => .txs⟩,
  ⟨0x9D, 5, .absX, .sta, fun lo hi => .staAbsX (wordOf hi lo)⟩]

/-- Row Ax of the map of R95. -/
def tableRowsAx : List TableRow := [
  ⟨0xA0, 2, .imm, .ldy, fun b _ => .ldyImm b⟩,
  ⟨0xA1, 6, .indX, .lda, fun b _ => .ldaIndX b⟩,
  ⟨0xA2, 2, .imm, .ldx, fun b _ => .ldxImm b⟩,
  ⟨0xA4, 3, .zp, .ldy, fun b _ => .ldyZp b⟩,
  ⟨0xA5, 3, .zp, .lda, fun b _ => .ldaZp b⟩,
  ⟨0xA6, 3, .zp, .ldx, fun b _ => .ldxZp b⟩,
  ⟨0xA8, 2, .implied, .tay, fun _ _ => .tay⟩,
  ⟨0xA9, 2, .imm, .lda, fun b _ => .ldaImm b⟩,
  ⟨0xAA, 2, .implied, .tax, fun _ _ => .tax⟩,
  ⟨0xAC, 4, .abs, .ldy, fun lo hi => .ldyAbs (wordOf hi lo)⟩,
  ⟨0xAD, 4, .abs, .lda, fun lo hi => .ldaAbs (wordOf hi lo)⟩,
  ⟨0xAE, 4, .abs, .ldx, fun lo hi => .ldxAbs (wordOf hi lo)⟩]

/-- Row Bx of the map of R95. -/
def tableRowsBx : List TableRow := [
  ⟨0xB0, 2, .rel, .bcs, fun b _ => .bcs b⟩,
  ⟨0xB1, 5, .indY, .lda, fun b _ => .ldaIndY b⟩,
  ⟨0xB4, 4, .zpX, .ldy, fun b _ => .ldyZpX b⟩,
  ⟨0xB5, 4, .zpX, .lda, fun b _ => .ldaZpX b⟩,
  ⟨0xB6, 4, .zpY, .ldx, fun b _ => .ldxZpY b⟩,
  ⟨0xB8, 2, .implied, .clv, fun _ _ => .clv⟩,
  ⟨0xB9, 4, .absY, .lda, fun lo hi => .ldaAbsY (wordOf hi lo)⟩,
  ⟨0xBA, 2, .implied, .tsx, fun _ _ => .tsx⟩,
  ⟨0xBC, 4, .absX, .ldy, fun lo hi => .ldyAbsX (wordOf hi lo)⟩,
  ⟨0xBD, 4, .absX, .lda, fun lo hi => .ldaAbsX (wordOf hi lo)⟩,
  ⟨0xBE, 4, .absY, .ldx, fun lo hi => .ldxAbsY (wordOf hi lo)⟩]

/-- Row Cx of the map of R95. -/
def tableRowsCx : List TableRow := [
  ⟨0xC0, 2, .imm, .cpy, fun b _ => .cpyImm b⟩,
  ⟨0xC1, 6, .indX, .cmp, fun b _ => .cmpIndX b⟩,
  ⟨0xC4, 3, .zp, .cpy, fun b _ => .cpyZp b⟩,
  ⟨0xC5, 3, .zp, .cmp, fun b _ => .cmpZp b⟩,
  ⟨0xC6, 5, .zp, .dec, fun b _ => .decZp b⟩,
  ⟨0xC8, 2, .implied, .iny, fun _ _ => .iny⟩,
  ⟨0xC9, 2, .imm, .cmp, fun b _ => .cmpImm b⟩,
  ⟨0xCA, 2, .implied, .dex, fun _ _ => .dex⟩,
  ⟨0xCC, 4, .abs, .cpy, fun lo hi => .cpyAbs (wordOf hi lo)⟩,
  ⟨0xCD, 4, .abs, .cmp, fun lo hi => .cmpAbs (wordOf hi lo)⟩,
  ⟨0xCE, 6, .abs, .dec, fun lo hi => .decAbs (wordOf hi lo)⟩]

/-- Row Dx of the map of R95. -/
def tableRowsDx : List TableRow := [
  ⟨0xD0, 2, .rel, .bne, fun b _ => .bne b⟩,
  ⟨0xD1, 5, .indY, .cmp, fun b _ => .cmpIndY b⟩,
  ⟨0xD5, 4, .zpX, .cmp, fun b _ => .cmpZpX b⟩,
  ⟨0xD6, 6, .zpX, .dec, fun b _ => .decZpX b⟩,
  ⟨0xD8, 2, .implied, .cld, fun _ _ => .cld⟩,
  ⟨0xD9, 4, .absY, .cmp, fun lo hi => .cmpAbsY (wordOf hi lo)⟩,
  ⟨0xDD, 4, .absX, .cmp, fun lo hi => .cmpAbsX (wordOf hi lo)⟩,
  ⟨0xDE, 7, .absX, .dec, fun lo hi => .decAbsX (wordOf hi lo)⟩]

/-- Row Ex of the map of R95. -/
def tableRowsEx : List TableRow := [
  ⟨0xE0, 2, .imm, .cpx, fun b _ => .cpxImm b⟩,
  ⟨0xE1, 6, .indX, .sbc, fun b _ => .sbcIndX b⟩,
  ⟨0xE4, 3, .zp, .cpx, fun b _ => .cpxZp b⟩,
  ⟨0xE5, 3, .zp, .sbc, fun b _ => .sbcZp b⟩,
  ⟨0xE6, 5, .zp, .inc, fun b _ => .incZp b⟩,
  ⟨0xE8, 2, .implied, .inx, fun _ _ => .inx⟩,
  ⟨0xE9, 2, .imm, .sbc, fun b _ => .sbcImm b⟩,
  ⟨0xEA, 2, .implied, .nop, fun _ _ => .nop⟩,
  ⟨0xEC, 4, .abs, .cpx, fun lo hi => .cpxAbs (wordOf hi lo)⟩,
  ⟨0xED, 4, .abs, .sbc, fun lo hi => .sbcAbs (wordOf hi lo)⟩,
  ⟨0xEE, 6, .abs, .inc, fun lo hi => .incAbs (wordOf hi lo)⟩]

/-- Row Fx of the map of R95. -/
def tableRowsFx : List TableRow := [
  ⟨0xF0, 2, .rel, .beq, fun b _ => .beq b⟩,
  ⟨0xF1, 5, .indY, .sbc, fun b _ => .sbcIndY b⟩,
  ⟨0xF5, 4, .zpX, .sbc, fun b _ => .sbcZpX b⟩,
  ⟨0xF6, 6, .zpX, .inc, fun b _ => .incZpX b⟩,
  ⟨0xF8, 2, .implied, .sed, fun _ _ => .sed⟩,
  ⟨0xF9, 4, .absY, .sbc, fun lo hi => .sbcAbsY (wordOf hi lo)⟩,
  ⟨0xFD, 4, .absX, .sbc, fun lo hi => .sbcAbsX (wordOf hi lo)⟩,
  ⟨0xFE, 7, .absX, .inc, fun lo hi => .incAbsX (wordOf hi lo)⟩]

/-- The assigned entries of the dispatch table, the 151 rows of spec/opcode_table.json (R231). -/
def dispatchTable : List TableRow :=
  tableRows0x ++ tableRows1x ++ tableRows2x ++ tableRows3x ++ tableRows4x ++ tableRows5x ++ tableRows6x ++ tableRows7x ++
  tableRows8x ++ tableRows9x ++ tableRowsAx ++ tableRowsBx ++ tableRowsCx ++ tableRowsDx ++ tableRowsEx ++ tableRowsFx

/-- `TABLE[op]` (R230, R243): the entry of an opcode byte, or none where the byte is the illegal sentinel (R97). -/
def tableEntry (op : Byte) : Option TableRow := dispatchTable.find? (fun row => row.opcode == op)

/-- Why bytes are no instruction. -/
inductive DecodeError where
  /-- the opcode byte is one of the 105 illegal bytes of R97 -/
  | illegalOpcode (op : Byte)
  /-- the bytes end before the instruction does -/
  | truncated
  deriving DecidableEq, Repr

/-- Reads one instruction from the front of a byte sequence in address order (R80) and answers it with the bytes left. -/
def decode : List Byte → Except DecodeError (Instr × List Byte)
  | [] => .error .truncated
  | op :: rest =>
    match tableEntry op with
    | none => .error (.illegalOpcode op)
    | some row =>
      match row.mode.operandBytes, rest with
      | 0, rest => .ok (row.build 0 0, rest)
      | 1, b1 :: rest => .ok (row.build b1 0, rest)
      | 2, b1 :: b2 :: rest => .ok (row.build b1 b2, rest)
      | _, _ => .error .truncated

/-- The three bytes of an instruction whose bits are the low `nbits` bits of `w`, bit 0 the least significant bit of the
opcode byte; the bits above are 0. -/
def tableWordBytes (nbits w : Nat) : List Byte :=
  let v := w % 2 ^ nbits
  [BitVec.ofNat 8 v, BitVec.ofNat 8 (v / 256), BitVec.ofNat 8 (v / 65536)]

/-- The instruction the decoder reads from the word `w` of `nbits` bits, numbered as spec/opcode_table.json numbers its
rows; none where it refuses. -/
def decodeTableWord (nbits w : Nat) : Option Instr :=
  match decode (tableWordBytes nbits w) with
  | .ok (i, _) => some i
  | .error _ => none

/-- The opcode byte of an instruction, from the "Encoding" line of its rule (R110 to R223). -/
def Instr.opcode : Instr → Byte
  | .oraIndX _ => 0x01
  | .oraZp _ => 0x05
  | .oraImm _ => 0x09
  | .oraAbs _ => 0x0D
  | .oraIndY _ => 0x11
  | .oraZpX _ => 0x15
  | .oraAbsY _ => 0x19
  | .oraAbsX _ => 0x1D
  | .andIndX _ => 0x21
  | .andZp _ => 0x25
  | .andImm _ => 0x29
  | .andAbs _ => 0x2D
  | .andIndY _ => 0x31
  | .andZpX _ => 0x35
  | .andAbsY _ => 0x39
  | .andAbsX _ => 0x3D
  | .eorIndX _ => 0x41
  | .eorZp _ => 0x45
  | .eorImm _ => 0x49
  | .eorAbs _ => 0x4D
  | .eorIndY _ => 0x51
  | .eorZpX _ => 0x55
  | .eorAbsY _ => 0x59
  | .eorAbsX _ => 0x5D
  | .aslZp _ => 0x06
  | .aslAcc => 0x0A
  | .aslAbs _ => 0x0E
  | .aslZpX _ => 0x16
  | .aslAbsX _ => 0x1E
  | .lsrZp _ => 0x46
  | .lsrAcc => 0x4A
  | .lsrAbs _ => 0x4E
  | .lsrZpX _ => 0x56
  | .lsrAbsX _ => 0x5E
  | .rolZp _ => 0x26
  | .rolAcc => 0x2A
  | .rolAbs _ => 0x2E
  | .rolZpX _ => 0x36
  | .rolAbsX _ => 0x3E
  | .rorZp _ => 0x66
  | .rorAcc => 0x6A
  | .rorAbs _ => 0x6E
  | .rorZpX _ => 0x76
  | .rorAbsX _ => 0x7E
  | .incZp _ => 0xE6
  | .incAbs _ => 0xEE
  | .incZpX _ => 0xF6
  | .incAbsX _ => 0xFE
  | .decZp _ => 0xC6
  | .decAbs _ => 0xCE
  | .decZpX _ => 0xD6
  | .decAbsX _ => 0xDE
  | .bitZp _ => 0x24
  | .bitAbs _ => 0x2C
  | .cmpIndX _ => 0xC1
  | .cmpZp _ => 0xC5
  | .cmpImm _ => 0xC9
  | .cmpAbs _ => 0xCD
  | .cmpIndY _ => 0xD1
  | .cmpZpX _ => 0xD5
  | .cmpAbsY _ => 0xD9
  | .cmpAbsX _ => 0xDD
  | .cpxImm _ => 0xE0
  | .cpxZp _ => 0xE4
  | .cpxAbs _ => 0xEC
  | .cpyImm _ => 0xC0
  | .cpyZp _ => 0xC4
  | .cpyAbs _ => 0xCC
  | .adcIndX _ => 0x61
  | .adcZp _ => 0x65
  | .adcImm _ => 0x69
  | .adcAbs _ => 0x6D
  | .adcIndY _ => 0x71
  | .adcZpX _ => 0x75
  | .adcAbsY _ => 0x79
  | .adcAbsX _ => 0x7D
  | .sbcIndX _ => 0xE1
  | .sbcZp _ => 0xE5
  | .sbcImm _ => 0xE9
  | .sbcAbs _ => 0xED
  | .sbcIndY _ => 0xF1
  | .sbcZpX _ => 0xF5
  | .sbcAbsY _ => 0xF9
  | .sbcAbsX _ => 0xFD
  | .pha => 0x48
  | .pla => 0x68
  | .php => 0x08
  | .plp => 0x28
  | .jsr _ => 0x20
  | .rts => 0x60
  | .brk => 0x00
  | .rti => 0x40
  | .bpl _ => 0x10
  | .bmi _ => 0x30
  | .bvc _ => 0x50
  | .bvs _ => 0x70
  | .bcc _ => 0x90
  | .bcs _ => 0xB0
  | .bne _ => 0xD0
  | .beq _ => 0xF0
  | .jmpAbs _ => 0x4C
  | .jmpInd _ => 0x6C
  | .tax => 0xAA
  | .txa => 0x8A
  | .tay => 0xA8
  | .tya => 0x98
  | .tsx => 0xBA
  | .txs => 0x9A
  | .inx => 0xE8
  | .iny => 0xC8
  | .dex => 0xCA
  | .dey => 0x88
  | .ldaIndX _ => 0xA1
  | .ldaZp _ => 0xA5
  | .ldaImm _ => 0xA9
  | .ldaAbs _ => 0xAD
  | .ldaIndY _ => 0xB1
  | .ldaZpX _ => 0xB5
  | .ldaAbsY _ => 0xB9
  | .ldaAbsX _ => 0xBD
  | .ldxImm _ => 0xA2
  | .ldxZp _ => 0xA6
  | .ldxAbs _ => 0xAE
  | .ldxZpY _ => 0xB6
  | .ldxAbsY _ => 0xBE
  | .ldyImm _ => 0xA0
  | .ldyZp _ => 0xA4
  | .ldyAbs _ => 0xAC
  | .ldyZpX _ => 0xB4
  | .ldyAbsX _ => 0xBC
  | .staIndX _ => 0x81
  | .staZp _ => 0x85
  | .staAbs _ => 0x8D
  | .staIndY _ => 0x91
  | .staZpX _ => 0x95
  | .staAbsY _ => 0x99
  | .staAbsX _ => 0x9D
  | .stxZp _ => 0x86
  | .stxAbs _ => 0x8E
  | .stxZpY _ => 0x96
  | .styZp _ => 0x84
  | .styAbs _ => 0x8C
  | .styZpX _ => 0x94
  | .clc => 0x18
  | .sec => 0x38
  | .cli => 0x58
  | .sei => 0x78
  | .clv => 0xB8
  | .cld => 0xD8
  | .sed => 0xF8
  | .nop => 0xEA

/-- The operand bytes of an effective-address operand in address order: a word's low byte first (R80, R86). -/
def Ea.bytes : Ea → List Byte
  | .zp b | .zpX b | .zpY b | .indX b | .indY b | .rel b => [b]
  | .abs w | .absX w | .absY w | .ind w => [loByte w, hiByte w]

/-- The operand bytes of an operand (R80, R82). -/
def Operand.bytes : Operand → List Byte
  | .imm b => [b]
  | .mem e => e.bytes
  | .acc | .implied => []

/-- The bytes of an instruction in address order (R80). -/
def encode (i : Instr) : List Byte := i.opcode :: i.operand.bytes

/-- How many bytes an instruction has (R80: 1 to 3). -/
def Instr.length (i : Instr) : Nat := (encode i).length

end Sys2Proof
end

