-- ==== Sys2Proof/Machine/Params.lean ====
section
/-! DEFINITION. The parameters of spec/00_scope.md R7 at the values this spec takes (log 14), and the fixed locations of
spec/20_memory.md R65. The cycle costs and the legal opcode set stand in the dispatch table of Sys2Proof/Decode.lean. -/

namespace Sys2Proof.Machine

/-- `BRANCH_TAKEN_EXTRA` (R7, R180): the extra cycles of a taken branch. -/
def branchTakenExtra : Nat := 1

/-- `FETCH_TRAPS` (R7, R81, D4): instruction-stream bytes are read through the address decoder. -/
def fetchTraps : Bool := true

/-- `INDX_ZP_WRAP` (R7, R88, D23): whether indirect,X masks its pointer addresses to page 0. -/
def indxZpWrap : Bool := false

/-- `BRK_PUSH_OFFSET` (R7, R166, D9): BRK pushes the address of its opcode byte plus this. -/
def brkPushOffset : Word := 1

/-- The first address of the stack page (R64, R65). -/
def stackPage : Word := 0x0100

/-- The BRK vector's low byte; its high byte is at the next address (R65). -/
def brkVector : Word := 0xFFFE

end Sys2Proof.Machine
end

