-- ==== Sys2Proof/Machine/Ops.lean ====
section
/-! DEFINITION. The shared operations over memory and registers: the address decoder with its traps
(spec/20_memory.md R52 to R58), word reads and the stack (R59, R62 to R64), the register writes, taking the one vectored
exception of the block and returning from it (BRK and RTI, spec/60_exceptions.md R252, R253), and the entry and the exits of
a call (spec/49_dispatch_loop.md R232, R236 to R239, R251). -/

namespace Sys2Proof.Machine

/-! ### Memory as data -/

/-- What an address that no cell lists reads as. DESIGN CHOICE, unsafe (log 4): the spec gives no contents after
`create` (R37). -/
def Memory.unlisted : Byte := 0x00

/-- The byte stored at an address. -/
def Memory.read : Memory → Nat → Byte
  | [], _ => Memory.unlisted
  | c :: m, n => if c.1 = n then c.2 else Memory.read m n

/-- Stores a byte: the cells stay in rising order, and a byte equal to `Memory.unlisted` is not listed. -/
def Memory.write : Memory → Nat → Byte → Memory
  | [], n, v => if v = Memory.unlisted then [] else [(n, v)]
  | c :: m, n, v =>
    if c.1 < n then c :: Memory.write m n v
    else if c.1 = n then (if v = Memory.unlisted then m else (n, v) :: m)
    else if v = Memory.unlisted then c :: m
    else (n, v) :: c :: m

/-- The canonical form: addresses strictly rising and below 65536, and no cell that an unlisted address would equal. -/
abbrev Memory.wf (m : Memory) : Prop :=
  m.Pairwise (fun c d => c.1 < d.1) ∧ ∀ c ∈ m, c.1 < 65536 ∧ c.2 ≠ Memory.unlisted

/-- The bytes a callback or the host writes directly, in order, past decoder, ROM protection and traps (R8, R57). -/
def Memory.pokeAll (m : Memory) (pokes : List (Word × Byte)) : Memory :=
  pokes.foldl (fun m q => Memory.write m q.1.toNat q.2) m

/-- The byte of memory at an address, by direct access (R8: no decoder, no trap). -/
def State.byteAt (st : State) (addr : Word) : Byte := Memory.read st.memory addr.toNat

/-- Stores a byte by direct access (R8: no decoder, no ROM protection, no trap). -/
def State.setByte (st : State) (addr : Word) (v : Byte) : State :=
  { st with memory := Memory.write st.memory addr.toNat v }

/-! ### Register writes -/

/-- `pc <- v`. -/
def State.setPc (st : State) (v : Word) : State := { st with work := { st.work with pc := v } }

/-- `a <- v`. -/
def State.setA (st : State) (v : Byte) : State := { st with work := { st.work with a := v } }

/-- `x <- v`. -/
def State.setX (st : State) (v : Byte) : State := { st with work := { st.work with x := v } }

/-- `y <- v`. -/
def State.setY (st : State) (v : Byte) : State := { st with work := { st.work with y := v } }

/-- `s <- v`. -/
def State.setS (st : State) (v : Byte) : State := { st with work := { st.work with s := v } }

/-- `p <- v`. -/
def State.setP (st : State) (v : Byte) : State := { st with work := { st.work with p := v } }

/-- `budget <- budget - n` (spec/00_scope.md R13). -/
def State.charge (st : State) (n : Nat) : State := { st with budget := st.budget - n }

/-! ### The address decoder -/

/-- The three classes of an address (R52). -/
inductive AddrClass where
  | special | rom | ram
  deriving DecidableEq, Repr

/-- The address lies in the special range `[start, end)` (R53). -/
abbrev State.isSpecial (st : State) (addr : Word) : Prop :=
  st.specialStart.val ≤ addr.toNat ∧ addr.toNat < st.specialEnd.val

/-- The class of an address, in R52's priority: the special range before ROM, ROM before RAM. -/
def State.classify (st : State) (addr : Word) : AddrClass :=
  if st.isSpecial addr then .special
  else if st.romBoundary.val ≤ addr.toNat then .rom
  else .ram

/-- What the read callback answers (R57): the host's next answer, or the free value of Config (log 5). -/
def State.readAnswer (st : State) : TrapAnswer :=
  match st.hostAnswers with
  | ans :: _ => ans
  | [] => Config.readCallback st.readCallback st.trapLog st.record st.tickBudget st.specialEvent st.memory

/-- What the write callback does (R58): the host's next answer, or the free value of Config (log 5). -/
def State.writeAnswer (st : State) : TrapAnswer :=
  match st.hostAnswers with
  | ans :: _ => ans
  | [] => Config.writeCallback st.writeCallback st.trapLog st.record st.tickBudget st.specialEvent st.memory

/-- A trap transaction has ended: it is logged (log 6), the host's answer is used up, and `special_event` is free again
(R32, log 7). -/
def State.endTrap (st : State) (ev : TrapEvent) : State :=
  { st with
    specialEvent := Config.specialEventAfterTrap (ev :: st.trapLog)
    hostAnswers := st.hostAnswers.tail
    trapLog := ev :: st.trapLog }

/-- The read trap (R55): the callback gets the address, may change memory and answers a byte; the byte is then stored at
that address whatever `rom_boundary` is (D18). -/
def readTrap (addr : Word) (st : State) : Byte × State :=
  let asked : State := { st with specialEvent := { st.specialEvent with address := addr } }
  let ans := asked.readAnswer
  let cached := Memory.write (Memory.pokeAll st.memory ans.pokes) addr.toNat ans.value
  (ans.value, State.endTrap { asked with memory := cached } (.read addr ans.value))

/-- The write trap (R56): the callback gets the address and the byte; memory changes only as it makes it change (R58). -/
def writeTrap (addr : Word) (v : Byte) (st : State) : State :=
  let asked : State := { st with specialEvent := { address := addr, value := v } }
  let ans := asked.writeAnswer
  State.endTrap { asked with memory := Memory.pokeAll st.memory ans.pokes } (.write addr v)

/-- `MemRead(addr, 1)` (R55). -/
def memRead (addr : Word) (st : State) : Byte × State :=
  match st.classify addr with
  | .special => readTrap addr st
  | .rom | .ram => (st.byteAt addr, st)

/-- `MemWrite(addr, 1, v)` (R56): traps, stores or drops. -/
def memWrite (addr : Word) (v : Byte) (st : State) : State :=
  match st.classify addr with
  | .special => writeTrap addr v st
  | .ram => st.setByte addr v
  | .rom => st

/-- `MemRead` of a word whose high byte stands at `hiAddr`: the low byte first (R59). -/
def memReadPair (loAddr hiAddr : Word) (st : State) : Word × State :=
  let lo := memRead loAddr st
  let hi := memRead hiAddr lo.2
  (wordOf hi.1 lo.1, hi.2)

/-- `MemRead(addr, 2)` (R59): the second address is `addr + 1` modulo 2^16, masked to no page. -/
def memReadWord (addr : Word) (st : State) : Word × State :=
  memReadPair addr (addr + 1) st

/-! ### The stack -/

/-- The address the stack pointer value `s` designates (R24, R64). -/
def stackAddr (s : Byte) : Word := stackPage + s.setWidth 16

/-- `Push(v)` (R62): stores at `0x0100 + s`, then decrements `s` modulo 2^8. -/
def push (v : Byte) (st : State) : State :=
  let stored := memWrite (stackAddr st.work.s) v st
  stored.setS (st.work.s - 1)

/-- `Pull()` (R63): increments `s` modulo 2^8, then loads from `0x0100 + s`. -/
def pull (st : State) : Byte × State :=
  let s' := st.work.s + 1
  memRead (stackAddr s') (st.setS s')

/-- Pushes a 16-bit address, high byte first (R60, R164, D10). -/
def pushWord (w : Word) (st : State) : State :=
  push (loByte w) (push (hiByte w) st)

/-- Pulls a 16-bit address, low byte first (R165, R167). -/
def pullWord (st : State) : Word × State :=
  let lo := pull st
  let hi := pull lo.2
  (wordOf hi.1 lo.1, hi.2)

/-! ### Taking the software trap and returning from it -/

/-- Taking the block's one vectored exception (R166, R252): pushes the return address, sets B and I in `p`, pushes `p`
with U set, and goes to the address at 0xFFFE/0xFFFF. `pc` is the address after the opcode byte, `o + 1`. -/
def takeBreak (st : State) : State :=
  let ret := st.work.pc - 1 + brkPushOffset
  let saved := pushWord ret st
  let flagged := saved.setP (saved.work.p ||| 0x14)
  let pushed := push (flagged.work.p ||| 0x20) flagged
  let vector := memReadWord brkVector pushed
  vector.2.setPc vector.1

/-- Returning from it (R167, R253): pulls all eight bits of `p`, then `pc`, low byte first, with nothing added. -/
def returnFromBreak (st : State) : State :=
  let flags := pull st
  let back := pullWord (flags.2.setP flags.1)
  back.2.setPc back.1

/-! ### The entry and the exits of a call -/

/-- The host has configured what R271 and R37 ask for before a call: the special range is in order (R31), and the
callbacks are there if it is not empty. -/
abbrev State.launchable (st : State) : Prop :=
  st.specialStart ≤ st.specialEnd ∧
    (st.specialStart = st.specialEnd ∨ (st.readCallback.isSome ∧ st.writeCallback.isSome))

/-- Entry of `execute(ticks)` (R232): the working registers are copied from the VM record and both budgets are set to
`ticks` (R34, log 10). -/
def enterCall (ticks : Int) (st : State) : State :=
  { st with
    work := st.record
    budget := ticks
    tickBudget := ticks
    phase := .running ticks
    result := none }

/-- The test before each instruction (R236): `p = 0` first, then the budget; none means run one instruction. -/
def stopTest (st : State) : Option ExitStatus :=
  if st.work.p = 0x00 then some .stopped
  else if st.budget ≤ 0 then some .exhausted
  else none

/-- Exit of the call `execute(ticks)` with a status (R237 to R239): the working registers and budget are flushed to the
VM record, and the call answers. -/
def exitCall (ticks : Int) (status : ExitStatus) (st : State) : State :=
  { st with
    record := st.work
    tickBudget := st.budget
    phase := .idle
    result := some { ticksConsumed := ticks - st.budget, status := status } }

end Sys2Proof.Machine
end

