-- ==== Sys2Proof/Machine/Operands.lean ====
section
/-! DEFINITION. The addressing-mode resolver (spec/30_encoding.md R82 to R92) and the operand helpers (R93). The operand
bytes have been fetched (Sys2Proof/Machine/Fetch.lean) and stand in the instruction; what is left of the resolver is its
pointer reads and its address arithmetic, modulo 2^16 (R51). In the state it works on `pc` is the address after the
instruction. -/

namespace Sys2Proof.Machine

/-- `zext_16(b)` (spec/00_scope.md R12). -/
def zext16 (b : Byte) : Word := b.setWidth 16

/-- Resolves an operand to its effective address; the state changes only if a pointer read traps. -/
def resolve (e : Ea) (st : State) : Word × State :=
  match e with
  | .zp b => (zext16 b, st)
  | .zpX b => (zext16 (b + st.work.x), st)
  | .zpY b => (zext16 (b + st.work.y), st)
  | .abs w => (w, st)
  | .absX w => (w + zext16 st.work.x, st)
  | .absY w => (w + zext16 st.work.y, st)
  | .indX b =>
    if indxZpWrap then memReadPair (zext16 (b + st.work.x)) (zext16 (b + st.work.x + 1)) st
    else memReadWord (zext16 b + zext16 st.work.x) st
  | .indY b =>
    let ptr := memReadWord (zext16 b) st
    (ptr.1 + zext16 st.work.y, ptr.2)
  | .ind w => memReadWord w st
  | .rel b => (st.work.pc + BitVec.ofInt 16 (sext8 b), st)

/-- `LoadOperand` of an immediate (R83, R93): no memory access. -/
def loadImm (b : Byte) (st : State) : Byte × State := (b, st)

/-- `LoadOperand` of an effective address (R93): resolves it, then reads one byte. -/
def loadEa (e : Ea) (st : State) : Byte × State :=
  let ea := resolve e st
  memRead ea.1 ea.2

/-- The memory form of a store (R93): resolves the operand, then writes one byte; the address is not read. -/
def storeEa (e : Ea) (v : Byte) (st : State) : State :=
  let ea := resolve e st
  memWrite ea.1 v ea.2

/-- The memory form of a read-modify-write (R68, R93): one read, then one write to the same address; `f` gives the result
and the new flags from the byte and `p`. -/
def modifyEa (f : Byte → Byte → Byte × Byte) (e : Ea) (st : State) : State :=
  let ea := resolve e st
  let old := memRead ea.1 ea.2
  let new := f old.1 old.2.work.p
  (memWrite ea.1 new.1 old.2).setP new.2

/-- The accumulator form of a read-modify-write (R92, R93). -/
def modifyAcc (f : Byte → Byte → Byte × Byte) (st : State) : State :=
  let new := f st.work.a st.work.p
  (st.setA new.1).setP new.2

/-- `a <- v; setzn(a)`. -/
def assignA (v : Byte) (st : State) : State := (st.setA v).setP (setzn v st.work.p)

/-- `x <- v; setzn(x)`. -/
def assignX (v : Byte) (st : State) : State := (st.setX v).setP (setzn v st.work.p)

/-- `y <- v; setzn(y)`. -/
def assignY (v : Byte) (st : State) : State := (st.setY v).setP (setzn v st.work.p)

/-- The outcome of one instruction. -/
abbrev Outcome := Host.Outcome State Fault Refusal

end Sys2Proof.Machine
end

