-- ==== Sys2Proof/Machine/Arith.lean ====
section
/-! DEFINITION. ADC and SBC, binary and decimal (spec/43_arithmetic_bcd.md R143 to R146); the adder cores stand in
Sys2Proof/Machine/Flags.lean. -/

namespace Sys2Proof.Machine

/-- `a <- r` and the four flags, from an adder core (R143, R144). -/
def assignAlu (res : AluResult) (st : State) : State := (st.setA res.r).setP (aluFlags res st.work.p)

/-- ADC (R143), on a loaded operand. -/
def adcOp (m : Byte × State) : State := assignAlu (adcCore m.2.work.a m.1 m.2.work.p) m.2

/-- SBC (R144), on a loaded operand. -/
def sbcOp (m : Byte × State) : State := assignAlu (sbcCore m.2.work.a m.1 m.2.work.p) m.2

/-- ADC (zp,X) (R143, R88). -/
def execAdcIndX (b : Byte) (s : State) : Outcome := .next (adcOp (loadEa (.indX b) s))

/-- ADC zp (R143, R84). -/
def execAdcZp (b : Byte) (s : State) : Outcome := .next (adcOp (loadEa (.zp b) s))

/-- ADC # (R143, R83). -/
def execAdcImm (b : Byte) (s : State) : Outcome := .next (adcOp (loadImm b s))

/-- ADC abs (R143, R86). -/
def execAdcAbs (w : Word) (s : State) : Outcome := .next (adcOp (loadEa (.abs w) s))

/-- ADC (zp),Y (R143, R89). -/
def execAdcIndY (b : Byte) (s : State) : Outcome := .next (adcOp (loadEa (.indY b) s))

/-- ADC zp,X (R143, R85). -/
def execAdcZpX (b : Byte) (s : State) : Outcome := .next (adcOp (loadEa (.zpX b) s))

/-- ADC abs,Y (R143, R87). -/
def execAdcAbsY (w : Word) (s : State) : Outcome := .next (adcOp (loadEa (.absY w) s))

/-- ADC abs,X (R143, R87). -/
def execAdcAbsX (w : Word) (s : State) : Outcome := .next (adcOp (loadEa (.absX w) s))

/-- SBC (zp,X) (R144, R88). -/
def execSbcIndX (b : Byte) (s : State) : Outcome := .next (sbcOp (loadEa (.indX b) s))

/-- SBC zp (R144, R84). -/
def execSbcZp (b : Byte) (s : State) : Outcome := .next (sbcOp (loadEa (.zp b) s))

/-- SBC # (R144, R83). -/
def execSbcImm (b : Byte) (s : State) : Outcome := .next (sbcOp (loadImm b s))

/-- SBC abs (R144, R86). -/
def execSbcAbs (w : Word) (s : State) : Outcome := .next (sbcOp (loadEa (.abs w) s))

/-- SBC (zp),Y (R144, R89). -/
def execSbcIndY (b : Byte) (s : State) : Outcome := .next (sbcOp (loadEa (.indY b) s))

/-- SBC zp,X (R144, R85). -/
def execSbcZpX (b : Byte) (s : State) : Outcome := .next (sbcOp (loadEa (.zpX b) s))

/-- SBC abs,Y (R144, R87). -/
def execSbcAbsY (w : Word) (s : State) : Outcome := .next (sbcOp (loadEa (.absY w) s))

/-- SBC abs,X (R144, R87). -/
def execSbcAbsX (w : Word) (s : State) : Outcome := .next (sbcOp (loadEa (.absX w) s))

end Sys2Proof.Machine
end

