-- ==== Sys2Proof/Machine/Branch.lean ====
section
/-! DEFINITION. The eight branches and JMP (spec/45_branch_jump.md R180 to R189). -/

namespace Sys2Proof.Machine

/-- `Branch(cond, t)` (R180): the target is resolved in any case; a taken branch goes there and costs one more cycle. -/
def branch (cond : Bool) (b : Byte) (st : State) : State :=
  let target := resolve (.rel b) st
  if cond then (target.2.setPc target.1).charge branchTakenExtra else target.2

/-- JMP (R189). -/
def jmpOp (e : Ea) (st : State) : State :=
  let target := resolve e st
  target.2.setPc target.1

/-- BPL rel (R181, R91). -/
def execBpl (b : Byte) (s : State) : Outcome := .next (branch (!flagN s.work.p) b s)

/-- BMI rel (R182, R91). -/
def execBmi (b : Byte) (s : State) : Outcome := .next (branch (flagN s.work.p) b s)

/-- BVC rel (R183, R91). -/
def execBvc (b : Byte) (s : State) : Outcome := .next (branch (!flagV s.work.p) b s)

/-- BVS rel (R184, R91). -/
def execBvs (b : Byte) (s : State) : Outcome := .next (branch (flagV s.work.p) b s)

/-- BCC rel (R185, R91). -/
def execBcc (b : Byte) (s : State) : Outcome := .next (branch (!flagC s.work.p) b s)

/-- BCS rel (R186, R91). -/
def execBcs (b : Byte) (s : State) : Outcome := .next (branch (flagC s.work.p) b s)

/-- BNE rel (R187, R91). -/
def execBne (b : Byte) (s : State) : Outcome := .next (branch (!flagZ s.work.p) b s)

/-- BEQ rel (R188, R91). -/
def execBeq (b : Byte) (s : State) : Outcome := .next (branch (flagZ s.work.p) b s)

/-- JMP abs (R189, R86). -/
def execJmpAbs (w : Word) (s : State) : Outcome := .next (jmpOp (.abs w) s)

/-- JMP (abs) (R189, R90). -/
def execJmpInd (w : Word) (s : State) : Outcome := .next (jmpOp (.ind w) s)

end Sys2Proof.Machine
end

