-- ==== Sys2Proof/Machine/Compare.lean ====
section
/-! DEFINITION. CMP, CPX and CPY (spec/42_compare.md R130 to R133): only C, Z and N are written, in decimal mode too. -/

namespace Sys2Proof.Machine

/-- CMP (R131), on a loaded operand. -/
def cmpOp (m : Byte × State) : State := m.2.setP (compareFlags m.2.work.a m.1 m.2.work.p)

/-- CPX (R132), on a loaded operand. -/
def cpxOp (m : Byte × State) : State := m.2.setP (compareFlags m.2.work.x m.1 m.2.work.p)

/-- CPY (R133), on a loaded operand. -/
def cpyOp (m : Byte × State) : State := m.2.setP (compareFlags m.2.work.y m.1 m.2.work.p)

/-- CMP (zp,X) (R131, R88). -/
def execCmpIndX (b : Byte) (s : State) : Outcome := .next (cmpOp (loadEa (.indX b) s))

/-- CMP zp (R131, R84). -/
def execCmpZp (b : Byte) (s : State) : Outcome := .next (cmpOp (loadEa (.zp b) s))

/-- CMP # (R131, R83). -/
def execCmpImm (b : Byte) (s : State) : Outcome := .next (cmpOp (loadImm b s))

/-- CMP abs (R131, R86). -/
def execCmpAbs (w : Word) (s : State) : Outcome := .next (cmpOp (loadEa (.abs w) s))

/-- CMP (zp),Y (R131, R89). -/
def execCmpIndY (b : Byte) (s : State) : Outcome := .next (cmpOp (loadEa (.indY b) s))

/-- CMP zp,X (R131, R85). -/
def execCmpZpX (b : Byte) (s : State) : Outcome := .next (cmpOp (loadEa (.zpX b) s))

/-- CMP abs,Y (R131, R87). -/
def execCmpAbsY (w : Word) (s : State) : Outcome := .next (cmpOp (loadEa (.absY w) s))

/-- CMP abs,X (R131, R87). -/
def execCmpAbsX (w : Word) (s : State) : Outcome := .next (cmpOp (loadEa (.absX w) s))

/-- CPX # (R132, R83). -/
def execCpxImm (b : Byte) (s : State) : Outcome := .next (cpxOp (loadImm b s))

/-- CPX zp (R132, R84). -/
def execCpxZp (b : Byte) (s : State) : Outcome := .next (cpxOp (loadEa (.zp b) s))

/-- CPX abs (R132, R86). -/
def execCpxAbs (w : Word) (s : State) : Outcome := .next (cpxOp (loadEa (.abs w) s))

/-- CPY # (R133, R83). -/
def execCpyImm (b : Byte) (s : State) : Outcome := .next (cpyOp (loadImm b s))

/-- CPY zp (R133, R84). -/
def execCpyZp (b : Byte) (s : State) : Outcome := .next (cpyOp (loadEa (.zp b) s))

/-- CPY abs (R133, R86). -/
def execCpyAbs (w : Word) (s : State) : Outcome := .next (cpyOp (loadEa (.abs w) s))

end Sys2Proof.Machine
end

