-- ==== Sys2Proof/Machine/LoadStore.lean ====
section
/-! DEFINITION. Loads, stores, the flag instructions and NOP (spec/47_load_store_flag_nop.md R210 to R223). -/

namespace Sys2Proof.Machine

/-- LDA (R210), on a loaded operand. -/
def ldaOp (m : Byte × State) : State := assignA m.1 m.2

/-- LDX (R211), on a loaded operand. -/
def ldxOp (m : Byte × State) : State := assignX m.1 m.2

/-- LDY (R212), on a loaded operand. -/
def ldyOp (m : Byte × State) : State := assignY m.1 m.2

/-- LDA (zp,X) (R210, R88). -/
def execLdaIndX (b : Byte) (s : State) : Outcome := .next (ldaOp (loadEa (.indX b) s))

/-- LDA zp (R210, R84). -/
def execLdaZp (b : Byte) (s : State) : Outcome := .next (ldaOp (loadEa (.zp b) s))

/-- LDA # (R210, R83). -/
def execLdaImm (b : Byte) (s : State) : Outcome := .next (ldaOp (loadImm b s))

/-- LDA abs (R210, R86). -/
def execLdaAbs (w : Word) (s : State) : Outcome := .next (ldaOp (loadEa (.abs w) s))

/-- LDA (zp),Y (R210, R89). -/
def execLdaIndY (b : Byte) (s : State) : Outcome := .next (ldaOp (loadEa (.indY b) s))

/-- LDA zp,X (R210, R85). -/
def execLdaZpX (b : Byte) (s : State) : Outcome := .next (ldaOp (loadEa (.zpX b) s))

/-- LDA abs,Y (R210, R87). -/
def execLdaAbsY (w : Word) (s : State) : Outcome := .next (ldaOp (loadEa (.absY w) s))

/-- LDA abs,X (R210, R87). -/
def execLdaAbsX (w : Word) (s : State) : Outcome := .next (ldaOp (loadEa (.absX w) s))

/-- LDX # (R211, R83). -/
def execLdxImm (b : Byte) (s : State) : Outcome := .next (ldxOp (loadImm b s))

/-- LDX zp (R211, R84). -/
def execLdxZp (b : Byte) (s : State) : Outcome := .next (ldxOp (loadEa (.zp b) s))

/-- LDX abs (R211, R86). -/
def execLdxAbs (w : Word) (s : State) : Outcome := .next (ldxOp (loadEa (.abs w) s))

/-- LDX zp,Y (R211, R85). -/
def execLdxZpY (b : Byte) (s : State) : Outcome := .next (ldxOp (loadEa (.zpY b) s))

/-- LDX abs,Y (R211, R87). -/
def execLdxAbsY (w : Word) (s : State) : Outcome := .next (ldxOp (loadEa (.absY w) s))

/-- LDY # (R212, R83). -/
def execLdyImm (b : Byte) (s : State) : Outcome := .next (ldyOp (loadImm b s))

/-- LDY zp (R212, R84). -/
def execLdyZp (b : Byte) (s : State) : Outcome := .next (ldyOp (loadEa (.zp b) s))

/-- LDY abs (R212, R86). -/
def execLdyAbs (w : Word) (s : State) : Outcome := .next (ldyOp (loadEa (.abs w) s))

/-- LDY zp,X (R212, R85). -/
def execLdyZpX (b : Byte) (s : State) : Outcome := .next (ldyOp (loadEa (.zpX b) s))

/-- LDY abs,X (R212, R87). -/
def execLdyAbsX (w : Word) (s : State) : Outcome := .next (ldyOp (loadEa (.absX w) s))

/-- STA (zp,X) (R213, R88). -/
def execStaIndX (b : Byte) (s : State) : Outcome := .next (storeEa (.indX b) s.work.a s)

/-- STA zp (R213, R84). -/
def execStaZp (b : Byte) (s : State) : Outcome := .next (storeEa (.zp b) s.work.a s)

/-- STA abs (R213, R86). -/
def execStaAbs (w : Word) (s : State) : Outcome := .next (storeEa (.abs w) s.work.a s)

/-- STA (zp),Y (R213, R89). -/
def execStaIndY (b : Byte) (s : State) : Outcome := .next (storeEa (.indY b) s.work.a s)

/-- STA zp,X (R213, R85). -/
def execStaZpX (b : Byte) (s : State) : Outcome := .next (storeEa (.zpX b) s.work.a s)

/-- STA abs,Y (R213, R87). -/
def execStaAbsY (w : Word) (s : State) : Outcome := .next (storeEa (.absY w) s.work.a s)

/-- STA abs,X (R213, R87). -/
def execStaAbsX (w : Word) (s : State) : Outcome := .next (storeEa (.absX w) s.work.a s)

/-- STX zp (R214, R84). -/
def execStxZp (b : Byte) (s : State) : Outcome := .next (storeEa (.zp b) s.work.x s)

/-- STX abs (R214, R86). -/
def execStxAbs (w : Word) (s : State) : Outcome := .next (storeEa (.abs w) s.work.x s)

/-- STX zp,Y (R214, R85). -/
def execStxZpY (b : Byte) (s : State) : Outcome := .next (storeEa (.zpY b) s.work.x s)

/-- STY zp (R215, R84). -/
def execStyZp (b : Byte) (s : State) : Outcome := .next (storeEa (.zp b) s.work.y s)

/-- STY abs (R215, R86). -/
def execStyAbs (w : Word) (s : State) : Outcome := .next (storeEa (.abs w) s.work.y s)

/-- STY zp,X (R215, R85). -/
def execStyZpX (b : Byte) (s : State) : Outcome := .next (storeEa (.zpX b) s.work.y s)

/-- CLC (R216). -/
def execClc (s : State) : Outcome := .next (s.setP (putC false s.work.p))

/-- SEC (R217). -/
def execSec (s : State) : Outcome := .next (s.setP (putC true s.work.p))

/-- CLI (R218). -/
def execCli (s : State) : Outcome := .next (s.setP (putI false s.work.p))

/-- SEI (R219). -/
def execSei (s : State) : Outcome := .next (s.setP (putI true s.work.p))

/-- CLV (R220). -/
def execClv (s : State) : Outcome := .next (s.setP (putV false s.work.p))

/-- CLD (R221). -/
def execCld (s : State) : Outcome := .next (s.setP (putD false s.work.p))

/-- SED (R222). -/
def execSed (s : State) : Outcome := .next (s.setP (putD true s.work.p))

/-- NOP (R223). -/
def execNop (s : State) : Outcome := .next s

end Sys2Proof.Machine
end

