-- ==== Sys2Proof/Machine/Logical.lean ====
section
/-! DEFINITION. The logical operations, shifts, INC, DEC and BIT (spec/41_logical_shift_bit.md R110 to R119). The byte
operand is loaded by `loadImm` or `loadEa` (R93); the shifts, INC and DEC go through `modifyAcc` or `modifyEa`. -/

namespace Sys2Proof.Machine

/-- ORA (R110), on a loaded operand. -/
def oraOp (m : Byte × State) : State := assignA (m.2.work.a ||| m.1) m.2

/-- AND (R111), on a loaded operand. -/
def andOp (m : Byte × State) : State := assignA (m.2.work.a &&& m.1) m.2

/-- EOR (R112), on a loaded operand. -/
def eorOp (m : Byte × State) : State := assignA (m.2.work.a ^^^ m.1) m.2

/-- BIT (R119), on a loaded operand: `a` is not written. -/
def bitOp (m : Byte × State) : State := m.2.setP (bitFlags m.2.work.a m.1 m.2.work.p)

/-- ORA (zp,X) (R110, R88). -/
def execOraIndX (b : Byte) (s : State) : Outcome := .next (oraOp (loadEa (.indX b) s))

/-- ORA zp (R110, R84). -/
def execOraZp (b : Byte) (s : State) : Outcome := .next (oraOp (loadEa (.zp b) s))

/-- ORA # (R110, R83). -/
def execOraImm (b : Byte) (s : State) : Outcome := .next (oraOp (loadImm b s))

/-- ORA abs (R110, R86). -/
def execOraAbs (w : Word) (s : State) : Outcome := .next (oraOp (loadEa (.abs w) s))

/-- ORA (zp),Y (R110, R89). -/
def execOraIndY (b : Byte) (s : State) : Outcome := .next (oraOp (loadEa (.indY b) s))

/-- ORA zp,X (R110, R85). -/
def execOraZpX (b : Byte) (s : State) : Outcome := .next (oraOp (loadEa (.zpX b) s))

/-- ORA abs,Y (R110, R87). -/
def execOraAbsY (w : Word) (s : State) : Outcome := .next (oraOp (loadEa (.absY w) s))

/-- ORA abs,X (R110, R87). -/
def execOraAbsX (w : Word) (s : State) : Outcome := .next (oraOp (loadEa (.absX w) s))

/-- AND (zp,X) (R111, R88). -/
def execAndIndX (b : Byte) (s : State) : Outcome := .next (andOp (loadEa (.indX b) s))

/-- AND zp (R111, R84). -/
def execAndZp (b : Byte) (s : State) : Outcome := .next (andOp (loadEa (.zp b) s))

/-- AND # (R111, R83). -/
def execAndImm (b : Byte) (s : State) : Outcome := .next (andOp (loadImm b s))

/-- AND abs (R111, R86). -/
def execAndAbs (w : Word) (s : State) : Outcome := .next (andOp (loadEa (.abs w) s))

/-- AND (zp),Y (R111, R89). -/
def execAndIndY (b : Byte) (s : State) : Outcome := .next (andOp (loadEa (.indY b) s))

/-- AND zp,X (R111, R85). -/
def execAndZpX (b : Byte) (s : State) : Outcome := .next (andOp (loadEa (.zpX b) s))

/-- AND abs,Y (R111, R87). -/
def execAndAbsY (w : Word) (s : State) : Outcome := .next (andOp (loadEa (.absY w) s))

/-- AND abs,X (R111, R87). -/
def execAndAbsX (w : Word) (s : State) : Outcome := .next (andOp (loadEa (.absX w) s))

/-- EOR (zp,X) (R112, R88). -/
def execEorIndX (b : Byte) (s : State) : Outcome := .next (eorOp (loadEa (.indX b) s))

/-- EOR zp (R112, R84). -/
def execEorZp (b : Byte) (s : State) : Outcome := .next (eorOp (loadEa (.zp b) s))

/-- EOR # (R112, R83). -/
def execEorImm (b : Byte) (s : State) : Outcome := .next (eorOp (loadImm b s))

/-- EOR abs (R112, R86). -/
def execEorAbs (w : Word) (s : State) : Outcome := .next (eorOp (loadEa (.abs w) s))

/-- EOR (zp),Y (R112, R89). -/
def execEorIndY (b : Byte) (s : State) : Outcome := .next (eorOp (loadEa (.indY b) s))

/-- EOR zp,X (R112, R85). -/
def execEorZpX (b : Byte) (s : State) : Outcome := .next (eorOp (loadEa (.zpX b) s))

/-- EOR abs,Y (R112, R87). -/
def execEorAbsY (w : Word) (s : State) : Outcome := .next (eorOp (loadEa (.absY w) s))

/-- EOR abs,X (R112, R87). -/
def execEorAbsX (w : Word) (s : State) : Outcome := .next (eorOp (loadEa (.absX w) s))

/-- ASL zp (R113, R84). -/
def execAslZp (b : Byte) (s : State) : Outcome := .next (modifyEa aslCore (.zp b) s)

/-- ASL A (R113, R92). -/
def execAslAcc (s : State) : Outcome := .next (modifyAcc aslCore s)

/-- ASL abs (R113, R86). -/
def execAslAbs (w : Word) (s : State) : Outcome := .next (modifyEa aslCore (.abs w) s)

/-- ASL zp,X (R113, R85). -/
def execAslZpX (b : Byte) (s : State) : Outcome := .next (modifyEa aslCore (.zpX b) s)

/-- ASL abs,X (R113, R87). -/
def execAslAbsX (w : Word) (s : State) : Outcome := .next (modifyEa aslCore (.absX w) s)

/-- LSR zp (R114, R84). -/
def execLsrZp (b : Byte) (s : State) : Outcome := .next (modifyEa lsrCore (.zp b) s)

/-- LSR A (R114, R92). -/
def execLsrAcc (s : State) : Outcome := .next (modifyAcc lsrCore s)

/-- LSR abs (R114, R86). -/
def execLsrAbs (w : Word) (s : State) : Outcome := .next (modifyEa lsrCore (.abs w) s)

/-- LSR zp,X (R114, R85). -/
def execLsrZpX (b : Byte) (s : State) : Outcome := .next (modifyEa lsrCore (.zpX b) s)

/-- LSR abs,X (R114, R87). -/
def execLsrAbsX (w : Word) (s : State) : Outcome := .next (modifyEa lsrCore (.absX w) s)

/-- ROL zp (R115, R84). -/
def execRolZp (b : Byte) (s : State) : Outcome := .next (modifyEa rolCore (.zp b) s)

/-- ROL A (R115, R92). -/
def execRolAcc (s : State) : Outcome := .next (modifyAcc rolCore s)

/-- ROL abs (R115, R86). -/
def execRolAbs (w : Word) (s : State) : Outcome := .next (modifyEa rolCore (.abs w) s)

/-- ROL zp,X (R115, R85). -/
def execRolZpX (b : Byte) (s : State) : Outcome := .next (modifyEa rolCore (.zpX b) s)

/-- ROL abs,X (R115, R87). -/
def execRolAbsX (w : Word) (s : State) : Outcome := .next (modifyEa rolCore (.absX w) s)

/-- ROR zp (R116, R84). -/
def execRorZp (b : Byte) (s : State) : Outcome := .next (modifyEa rorCore (.zp b) s)

/-- ROR A (R116, R92). -/
def execRorAcc (s : State) : Outcome := .next (modifyAcc rorCore s)

/-- ROR abs (R116, R86). -/
def execRorAbs (w : Word) (s : State) : Outcome := .next (modifyEa rorCore (.abs w) s)

/-- ROR zp,X (R116, R85). -/
def execRorZpX (b : Byte) (s : State) : Outcome := .next (modifyEa rorCore (.zpX b) s)

/-- ROR abs,X (R116, R87). -/
def execRorAbsX (w : Word) (s : State) : Outcome := .next (modifyEa rorCore (.absX w) s)

/-- INC zp (R117, R84). -/
def execIncZp (b : Byte) (s : State) : Outcome := .next (modifyEa incCore (.zp b) s)

/-- INC abs (R117, R86). -/
def execIncAbs (w : Word) (s : State) : Outcome := .next (modifyEa incCore (.abs w) s)

/-- INC zp,X (R117, R85). -/
def execIncZpX (b : Byte) (s : State) : Outcome := .next (modifyEa incCore (.zpX b) s)

/-- INC abs,X (R117, R87). -/
def execIncAbsX (w : Word) (s : State) : Outcome := .next (modifyEa incCore (.absX w) s)

/-- DEC zp (R118, R84). -/
def execDecZp (b : Byte) (s : State) : Outcome := .next (modifyEa decCore (.zp b) s)

/-- DEC abs (R118, R86). -/
def execDecAbs (w : Word) (s : State) : Outcome := .next (modifyEa decCore (.abs w) s)

/-- DEC zp,X (R118, R85). -/
def execDecZpX (b : Byte) (s : State) : Outcome := .next (modifyEa decCore (.zpX b) s)

/-- DEC abs,X (R118, R87). -/
def execDecAbsX (w : Word) (s : State) : Outcome := .next (modifyEa decCore (.absX w) s)

/-- BIT zp (R119, R84). -/
def execBitZp (b : Byte) (s : State) : Outcome := .next (bitOp (loadEa (.zp b) s))

/-- BIT abs (R119, R86). -/
def execBitAbs (w : Word) (s : State) : Outcome := .next (bitOp (loadEa (.abs w) s))

end Sys2Proof.Machine
end

