-- ==== Sys2Proof/Machine/Stack.lean ====
section
/-! DEFINITION. The stack and subroutine instructions, BRK and RTI (spec/44_stack_subroutine.md R160 to R167). `pc` is the address
after the instruction. -/

namespace Sys2Proof.Machine

/-- PLA (R161): pulls into `a` and sets Z and N. -/
def plaOp (st : State) : State :=
  let v := pull st
  assignA v.1 v.2

/-- PLP (R163): pulls all eight bits of `p`, none forced. -/
def plpOp (st : State) : State :=
  let v := pull st
  v.2.setP v.1

/-- JSR (R164): pushes the address of its own last byte, high byte first, and jumps; the target has been fetched
before. -/
def jsrOp (w : Word) (st : State) : State :=
  let target := resolve (.abs w) st
  (pushWord (target.2.work.pc - 1) target.2).setPc target.1

/-- RTS (R165): pulls an address and continues after it. -/
def rtsOp (st : State) : State :=
  let back := pullWord st
  back.2.setPc (back.1 + 1)

/-- PHA (R160). -/
def execPha (s : State) : Outcome := .next (push s.work.a s)

/-- PLA (R161). -/
def execPla (s : State) : Outcome := .next (plaOp s)

/-- PHP (R162). -/
def execPhp (s : State) : Outcome := .next (push (s.work.p ||| 0x30) s)

/-- PLP (R163). -/
def execPlp (s : State) : Outcome := .next (plpOp s)

/-- JSR abs (R164, R86). -/
def execJsr (w : Word) (s : State) : Outcome := .next (jsrOp w s)

/-- RTS (R165). -/
def execRts (s : State) : Outcome := .next (rtsOp s)

/-- BRK (R166). -/
def execBrk (s : State) : Outcome := .next (takeBreak s)

/-- RTI (R167). -/
def execRti (s : State) : Outcome := .next (returnFromBreak s)

end Sys2Proof.Machine
end

