-- ==== Sys2Proof/Machine/Transfer.lean ====
section
/-! DEFINITION. The register transfers and the register increments and decrements (spec/46_transfer_incdec.md R190 to R199). TSX and
TXS write no flag (spec/90_conflicts.md C6). -/

namespace Sys2Proof.Machine

/-- TAX (R190). -/
def execTax (s : State) : Outcome := .next (assignX s.work.a s)

/-- TXA (R191). -/
def execTxa (s : State) : Outcome := .next (assignA s.work.x s)

/-- TAY (R192). -/
def execTay (s : State) : Outcome := .next (assignY s.work.a s)

/-- TYA (R193). -/
def execTya (s : State) : Outcome := .next (assignA s.work.y s)

/-- TSX (R194). -/
def execTsx (s : State) : Outcome := .next (s.setX s.work.s)

/-- TXS (R195). -/
def execTxs (s : State) : Outcome := .next (s.setS s.work.x)

/-- INX (R196). -/
def execInx (s : State) : Outcome := .next (assignX (s.work.x + 1) s)

/-- INY (R197). -/
def execIny (s : State) : Outcome := .next (assignY (s.work.y + 1) s)

/-- DEX (R198). -/
def execDex (s : State) : Outcome := .next (assignX (s.work.x - 1) s)

/-- DEY (R199). -/
def execDey (s : State) : Outcome := .next (assignY (s.work.y - 1) s)

end Sys2Proof.Machine
end

