-- ==== Sys2Proof/Machine/Fetch.lean ====
section
/-! DEFINITION. Fetching one instruction (spec/30_encoding.md R81, spec/49_dispatch_loop.md R233, R234): the opcode byte,
the dispatch-table entry, the cycle deduction, then the mode's operand bytes, each byte through the address decoder. -/

namespace Sys2Proof.Machine

/-- `Fetch()` (R81): reads the byte at `pc` and advances `pc` modulo 2^16. -/
def fetchByte (st : State) : Byte × State :=
  let read := if fetchTraps then memRead st.work.pc st else (st.byteAt st.work.pc, st)
  (read.1, read.2.setPc (st.work.pc + 1))

/-- What fetching at `pc` comes to. -/
inductive Fetched where
  /-- the opcode byte is illegal (R233): the state after its fetch, `pc` just past it -/
  | illegal (st : State)
  /-- an instruction, and the state in which it executes: its cost deducted, `pc` past its bytes -/
  | legal (i : Instr) (st : State)
  deriving DecidableEq, Repr

/-- The operand bytes of a row's mode, then the instruction (R82); the cost is deducted before (R234). -/
def fetchOperands (row : TableRow) (st : State) : Fetched :=
  let charged := st.charge row.cycles
  match row.mode.operandBytes with
  | 0 => .legal (row.build 0 0) charged
  | 1 =>
    let b1 := fetchByte charged
    .legal (row.build b1.1 0) b1.2
  | _ =>
    let b1 := fetchByte charged
    let b2 := fetchByte b1.2
    .legal (row.build b1.1 b2.1) b2.2

/-- Fetch and decode of one instruction (R233). -/
def fetchInstr (st : State) : Fetched :=
  let op := fetchByte st
  match tableEntry op.1 with
  | none => .illegal op.2
  | some row => fetchOperands row op.2

/-- Stores bytes at consecutive addresses by direct access (R8), modulo 2^16. -/
def placeBytes (addr : Word) (bytes : List Byte) (st : State) : State :=
  match bytes with
  | [] => st
  | v :: rest => placeBytes (addr + 1) rest (st.setByte addr v)

/-- Makes the next step fetch at the program counter (log 12): a call is running (of `execute(1)` if none was), `p` is not
the stop sentinel, the budget is positive, and the longest instruction at `pc` lies outside the special range. What is so
already stays as it is. -/
def readyToFetch (st : State) : State :=
  let running : State :=
    match st.phase with
    | .running _ => st
    | .idle | .entering _ => enterCall 1 st
  let nonzero := if running.work.p = 0x00 then running.setP 0x20 else running
  let funded : State := if nonzero.budget ≤ 0 then { nonzero with budget := 1 } else nonzero
  let pc := funded.work.pc
  if funded.isSpecial pc ∨ funded.isSpecial (pc + 1) ∨ funded.isSpecial (pc + 2) then
    { funded with specialStart := 0, specialEnd := 0 }
  else funded

end Sys2Proof.Machine
end

