-- ==== Sys2Proof/Machine/Step.lean ====
section
/-! DEFINITION. One step of the machine (log 11): the entry of a call (spec/49_dispatch_loop.md R232), or one iteration of
the loop of R243, which runs one instruction or leaves the call (R233, R236 to R238). Between calls the machine waits for
the host and a step changes nothing. -/

namespace Sys2Proof.Machine

/-- One iteration of the loop of the call `execute(ticks)` (R243). -/
def loopStep (ticks : Int) (s : State) : Host.Outcome State Fault Refusal :=
  match stopTest s with
  | some status => .next (exitCall ticks status s)
  | none =>
    match fetchInstr s with
    | .illegal s' => .next (exitCall ticks .haltedIllegalOpcode s')
    | .legal i s' => exec i s'

/-- One step. -/
def step (s : State) : Host.Outcome State Fault Refusal :=
  match s.phase with
  | .idle => .next s
  | .entering ticks => if s.launchable then .next (enterCall ticks s) else .refused .launchNotConfigured
  | .running ticks => loopStep ticks s

/-- `s` with the instruction whose bits are the low `nbits` bits of `w` stored where the next step fetches, and all that
fetching it takes (log 12). -/
def State.withFetchWord (s : State) (nbits w : Nat) : State :=
  let ready := readyToFetch s
  placeBytes ready.work.pc (tableWordBytes nbits w) ready

end Sys2Proof.Machine
end

