-- ==== Sys2Proof/Machine/Ports.lean ====
section
/-! DEFINITION. What the host can do to the machine between steps (spec/00_scope.md R8, R9, R11): the configuration port,
the execute port and the lifecycle port. The trap port (R10) is inside `memRead` and `memWrite`. -/

namespace Sys2Proof.Machine

/-- One write of the host at the configuration port (R8). -/
inductive HostWrite where
  | pc (v : Word)
  | a (v : Byte)
  | x (v : Byte)
  | y (v : Byte)
  | s (v : Byte)
  | p (v : Byte)
  /-- a byte of the buffer, past decoder, ROM protection and traps -/
  | memory (addr : Word) (v : Byte)
  | romBoundary (v : Fin 65537)
  /-- both bounds of the special range (R31) -/
  | specialRange (start stop : Fin 65537)
  | readCallback (h : Option Nat)
  | writeCallback (h : Option Nat)
  deriving DecidableEq, Repr

/-- The effect of a host write on the VM record. -/
def HostWrite.apply (w : HostWrite) (st : State) : State :=
  match w with
  | .pc v => { st with record := { st.record with pc := v } }
  | .a v => { st with record := { st.record with a := v } }
  | .x v => { st with record := { st.record with x := v } }
  | .y v => { st with record := { st.record with y := v } }
  | .s v => { st with record := { st.record with s := v } }
  | .p v => { st with record := { st.record with p := v } }
  | .memory addr v => st.setByte addr v
  | .romBoundary v => { st with romBoundary := v }
  | .specialRange start stop => { st with specialStart := start, specialEnd := stop }
  | .readCallback h => { st with readCallback := h }
  | .writeCallback h => { st with writeCallback := h }

/-- The configuration port (R8): open between calls only; none while a call is in progress. -/
def configure (w : HostWrite) (st : State) : Option State :=
  if st.phase = .idle then some (w.apply st) else none

/-- The host issues `execute(ticks)` (R9). A call is not re-entrant (R240): none while one is in progress. -/
def issueExecute (ticks : Int) (st : State) : Option State :=
  if st.phase = .idle then some { st with phase := .entering ticks } else none

/-- As many steps as a call of `ticks` needs (R239, R263): its entry, at most `ticks` instructions, since each costs at
least one cycle, and its exit. Further steps change nothing. -/
def callSteps (ticks : Int) : Nat := ticks.toNat + 2

/-- The execute port as one transaction (R9): `execute(ticks)` run to completion; none while a call is in progress. The
answer of the call is the `result` of the state. -/
def execute (ticks : Int) (st : State) : Option Outcome :=
  (issueExecute ticks st).map (fun issued => Sys2Proof.core.run (callSteps ticks) issued)

/-- `create()` (R11, R270): a VM, or out of memory where the buffer cannot be obtained. -/
def create (bufferObtained : Bool) : Outcome :=
  if bufferObtained then .next State.reset else .fault .outOfMemory

/-- A VM as the host holds it: alive, or released by `destroy` (R11). -/
inductive Vm where
  | live (st : State)
  | released
  deriving DecidableEq, Repr

/-- `destroy(vm)` (R11): releases a VM exactly once; none for one already released or inside a call (R9, R240). -/
def Vm.destroy : Vm → Option Vm
  | .live st => if st.phase = .idle then some .released else none
  | .released => none

end Sys2Proof.Machine
end

