-- ==== Sys2Proof/Safety.lean ====
section
/-! DEFINITION. The terms the claims are stated in: the flag byte written out bit by bit, what an instruction stores to,
what a legal call looks like, and the invariant of the machine. -/

namespace Sys2Proof.Machine

/-! ### The flag byte bit by bit -/

/-- The flag byte with these eight bits, in the order of spec/10_state.md R25 (bit 7 first). -/
def packFlags (n v u b d i z c : Bool) : Byte :=
  BitVec.ofBool n ++ BitVec.ofBool v ++ BitVec.ofBool u ++ BitVec.ofBool b ++ BitVec.ofBool d ++ BitVec.ofBool i ++
    BitVec.ofBool z ++ BitVec.ofBool c

/-- `p` with the four arithmetic flags replaced and U, B, D and I kept. -/
def flagsNVZC (n v z c : Bool) (p : Byte) : Byte := packFlags n v (flagU p) (flagB p) (flagD p) (flagI p) z c

/-- `p` with N and Z set from the result `r` (R27) and every other flag kept. -/
def flagsNZ (r p : Byte) : Byte := flagsNVZC (r.getLsbD 7) (flagV p) (r = 0) (flagC p) p

/-- `p` with N and Z set from the result `r`, C replaced, and every other flag kept. -/
def flagsNZC (r : Byte) (c : Bool) (p : Byte) : Byte := flagsNVZC (r.getLsbD 7) (flagV p) (r = 0) c p

/-! ### Traps and stores -/

/-- No trap happened between two states: the trap port (R10) had no transaction. -/
def NoTrap (st st' : State) : Prop := st'.trapLog = st.trapLog

/-- The addresses a memory instruction or a stack instruction stores to, in order, each by the function its meaning uses:
the resolved operand of a store or of a read-modify-write, the stack slots of a push. Every other instruction stores to
none. -/
def storedAddrs (i : Instr) (st : State) : List Word :=
  match i.mnemonic, i.operand with
  | .sta, .mem e | .stx, .mem e | .sty, .mem e => [(resolve e st).1]
  | .asl, .mem e | .lsr, .mem e | .rol, .mem e | .ror, .mem e | .inc, .mem e | .dec, .mem e => [(resolve e st).1]
  | .pha, _ | .php, _ => [stackAddr st.work.s]
  | .jsr, _ => [stackAddr st.work.s, stackAddr (st.work.s - 1)]
  | .brk, _ => [stackAddr st.work.s, stackAddr (st.work.s - 1), stackAddr (st.work.s - 2)]
  | _, _ => []

/-- The address can be stored to: neither special nor ROM (R52, R56). -/
abbrev State.isRam (st : State) (addr : Word) : Prop := st.classify addr = .ram

/-- The special range is empty (R31, R53), so that no access traps. -/
abbrev State.noSpecial (st : State) : Prop := st.specialStart = st.specialEnd

/-- The instruction is a branch and its flag condition holds (R181 to R188): it is taken. -/
def branchTaken (m : Mnemonic) (p : Byte) : Bool :=
  match m with
  | .bpl => !flagN p
  | .bmi => flagN p
  | .bvc => !flagV p
  | .bvs => flagV p
  | .bcc => !flagC p
  | .bcs => flagC p
  | .bne => !flagZ p
  | .beq => flagZ p
  | _ => false

/-! ### The invariant -/

/-- What an answered call left (R239): it consumed no negative count, it overran by at most one instruction (6 cycles), an
exhausted call has no budget left, and a halted call has some left. -/
def CallResult.wf (r : CallResult) (tickBudget : Int) : Prop :=
  0 ≤ r.ticksConsumed ∧ (r.ticksConsumed = 0 ∨ -6 ≤ tickBudget) ∧
    (r.status = .exhausted → tickBudget ≤ 0) ∧ (r.status = .haltedIllegalOpcode → 0 < tickBudget)

/-- What holds of the call state in each phase: a running call was configured by the host (R271), its record keeps the
entry value of the budget (R34, R35, log 10), and its working budget is that of its entry or has not run under by more than
one instruction (R239). -/
def State.callWf (st : State) : Prop :=
  match st.phase with
  | .idle => ∀ r ∈ st.result, r.wf st.tickBudget
  | .entering _ => True
  | .running ticks =>
    st.launchable ∧ st.tickBudget = ticks ∧ st.result = none ∧ st.budget ≤ ticks ∧ (st.budget = ticks ∨ -6 ≤ st.budget)

/-- The invariant every step keeps: memory is in its canonical form and the call state is as `callWf` says. -/
def State.Inv (st : State) : Prop := Memory.wf st.memory ∧ st.callWf

/-! ### Encoding and timing as the rules list them -/

/-- The 105 illegal opcode bytes as spec/30_encoding.md R97 lists them. -/
def illegalOpcodes : List Byte :=
  [0x02, 0x03, 0x04, 0x07, 0x0B, 0x0C, 0x0F, 0x12, 0x13, 0x14, 0x17, 0x1A, 0x1B, 0x1C, 0x1F, 0x22, 0x23, 0x27, 0x2B,
   0x2F, 0x32, 0x33, 0x34, 0x37, 0x3A, 0x3B, 0x3C, 0x3F, 0x42, 0x43] ++
  [0x44, 0x47, 0x4B, 0x4F, 0x52, 0x53, 0x54, 0x57, 0x5A, 0x5B, 0x5C, 0x5F, 0x62, 0x63, 0x64, 0x67, 0x6B, 0x6F, 0x72,
   0x73, 0x74, 0x77, 0x7A, 0x7B, 0x7C] ++
  [0x7F, 0x80, 0x82, 0x83, 0x87, 0x89, 0x8B, 0x8F, 0x92, 0x93, 0x97, 0x9B, 0x9C, 0x9E, 0x9F, 0xA3, 0xA7, 0xAB, 0xAF,
   0xB2, 0xB3, 0xB7, 0xBB, 0xBF, 0xC2] ++
  [0xC3, 0xC7, 0xCB, 0xCF, 0xD2, 0xD3, 0xD4, 0xD7, 0xDA, 0xDB, 0xDC, 0xDF, 0xE2, 0xE3, 0xE7, 0xEB, 0xEF, 0xF2, 0xF3,
   0xF4, 0xF7, 0xFA, 0xFB, 0xFC, 0xFF]

/-- The cycle costs that spec/70_reset_and_hazards.md R281 lists, by mnemonic and addressing mode; none where its list
names no cost (LDX, LDY, CPX, CPY, BIT, STX, STY, the other modes of STA, the branches). -/
def listedCycles (m : Mnemonic) (mode : Mode) : Option Nat :=
  match m, mode with
  | .ora, k | .and, k | .eor, k | .adc, k | .cmp, k | .sbc, k | .lda, k =>
    match k with
    | .imm => some 2
    | .zp => some 3
    | .zpX | .abs | .absX | .absY => some 4
    | .indX => some 6
    | .indY => some 5
    | _ => none
  | .sta, .absX | .sta, .absY => some 5
  | .sta, .indY => some 6
  | .asl, k | .lsr, k | .rol, k | .ror, k | .inc, k | .dec, k =>
    match k with
    | .acc => some 2
    | .zp => some 5
    | .zpX | .abs => some 6
    | .absX => some 7
    | _ => none
  | .jmp, .abs => some 3
  | .jmp, .ind => some 5
  | .jsr, _ | .rts, _ | .rti, _ => some 6
  | .brk, _ => some 7
  | .pha, _ | .php, _ => some 3
  | .pla, _ | .plp, _ => some 4
  | .tax, _ | .txa, _ | .tay, _ | .tya, _ | .tsx, _ | .txs, _ | .inx, _ | .iny, _ | .dex, _ | .dey, _ => some 2
  | .clc, _ | .sec, _ | .cli, _ | .sei, _ | .clv, _ | .cld, _ | .sed, _ | .nop, _ => some 2
  | _, _ => none

/-- The base cost of every row of spec/opcode_table.json, by mnemonic and addressing mode: R281's list; for the branches the
2 cycles of spec/45_branch_jump.md R180; for the rows that neither names, the table's `cycles` field (R231). None for a pair
that is no row. -/
def baseCycles (m : Mnemonic) (mode : Mode) : Option Nat :=
  match listedCycles m mode with
  | some n => some n
  | none =>
    match m, mode with
    | .bpl, .rel | .bmi, .rel | .bvc, .rel | .bvs, .rel | .bcc, .rel | .bcs, .rel | .bne, .rel | .beq, .rel => some 2
    | .ldx, .imm | .ldy, .imm | .cpx, .imm | .cpy, .imm => some 2
    | .ldx, .zp | .ldy, .zp | .cpx, .zp | .cpy, .zp | .bit, .zp | .sta, .zp | .stx, .zp | .sty, .zp => some 3
    | .ldx, .zpY | .ldx, .abs | .ldx, .absY | .ldy, .zpX | .ldy, .abs | .ldy, .absX => some 4
    | .cpx, .abs | .cpy, .abs | .bit, .abs | .stx, .zpY | .stx, .abs | .sty, .zpX | .sty, .abs => some 4
    | .sta, .zpX | .sta, .abs => some 4
    | .sta, .indX => some 6
    | _, _ => none

/-! ### Decimal bytes -/

/-- Both nibbles of the byte are decimal digits (spec/43_arithmetic_bcd.md R146). -/
def isBcd (b : Byte) : Prop := b.toNat % 16 ≤ 9 ∧ b.toNat / 16 ≤ 9

/-- The number a decimal byte stands for. -/
def bcdValue (b : Byte) : Nat := b.toNat / 16 * 10 + b.toNat % 16

end Sys2Proof.Machine
end

