-- ==== Sys2Proof/Certificates/Slice0/Obligations.lean ====
section
/-! DEFINITION. The statements for the provers. Each docstring names the rules of spec/ it formalises; where a statement
rests on a decision that the spec marks as its own (D<n>) or on a choice of this model (log <n>), its docstring says so.
A memory access written `memRead`, `memWrite`, `loadEa`, `resolve` may trap; what `resolve` and `loadEa` do is stated under
"The resolver" below (a load is a `memRead` at the resolved address), what `memRead` and `memWrite` do under "Memory and
traps". -/

open Sys2Proof Sys2Proof.Machine

/-! ### Encoding (spec/30_encoding.md) -/

/-- A sanity check: five words written from the map of R95 (decision D1; 0xA9 and 0x85 are the source's own) decode to the
instructions they stand for, operands little-endian. -/
def Obligations.WordsOfTheMapDecode : Prop :=
  decode [0xA9, 0x42] = .ok (.ldaImm 0x42, []) ∧
  decode [0x85, 0x10] = .ok (.staZp 0x10, []) ∧
  decode [0x6C, 0xFF, 0x10] = .ok (.jmpInd 0x10FF, []) ∧
  decode [0x7E, 0x00, 0x30, 0xEA] = .ok (.rorAbsX 0x3000, [0xEA]) ∧
  decode [0xD0, 0xFE] = .ok (.bne 0xFE, [])

/-- Decoding an encoded instruction gives it back, whatever bytes follow (R80, R95). The opcode map is decision D1. -/
def Obligations.DecodeOfEncodeGivesTheInstruction : Prop :=
  ∀ (i : Instr) (rest : List Byte), decode (encode i ++ rest) = .ok (i, rest)

/-- Encoding a decoded instruction gives its bytes back: no two byte sequences stand for one instruction (R80, R95). -/
def Obligations.EncodeOfDecodeGivesTheBytes : Prop :=
  ∀ (bytes rest : List Byte) (i : Instr), decode bytes = .ok (i, rest) → encode i ++ rest = bytes

/-- A mnemonic with an operand is an instruction exactly when the mnemonic's rule gives it that addressing mode
("Operands" lines of R110 to R223; R96: STA # and STX abs,Y are none). -/
def Obligations.FormIsAnInstructionIffWellFormed : Prop :=
  ∀ f : Form, f.wellFormed = true ↔ ∃ i : Instr, i.form = f

/-- The 105 bytes of R97 are refused as illegal whatever follows them, and every other opcode byte starts an instruction
(decision D1). -/
def Obligations.IllegalBytesAreThoseListed : Prop :=
  ∀ op b1 b2 : Byte,
    (op ∈ illegalOpcodes → ∀ rest, decode (op :: rest) = .error (.illegalOpcode op)) ∧
    (op ∉ illegalOpcodes → ∃ i rest, decode [op, b1, b2] = .ok (i, rest))

/-- R80: one opcode byte, then 0, 1 or 2 operand bytes, a 16-bit word's low byte first; the opcode byte alone selects the
dispatch-table entry (cost, mode, operation), and the mode alone fixes the number of operand bytes. -/
def Obligations.OpcodeByteFixesModeAndLength : Prop :=
  ∀ i : Instr,
    encode i = i.opcode :: i.operand.bytes ∧
    i.operand.bytes.length = i.operand.mode.operandBytes ∧ i.operand.mode.operandBytes ≤ 2 ∧
    (i.operand = .acc ∨ i.operand = .implied → encode i = [i.opcode]) ∧
    (∀ b, i.operand = .imm b ∨ i.operand = .mem (.zp b) ∨ i.operand = .mem (.zpX b) ∨ i.operand = .mem (.zpY b) ∨
        i.operand = .mem (.indX b) ∨ i.operand = .mem (.indY b) ∨ i.operand = .mem (.rel b) →
      encode i = [i.opcode, b]) ∧
    (∀ w, i.operand = .mem (.abs w) ∨ i.operand = .mem (.absX w) ∨ i.operand = .mem (.absY w) ∨
        i.operand = .mem (.ind w) → encode i = [i.opcode, loByte w, hiByte w]) ∧
    (∃ row, tableEntry i.opcode = some row ∧ row.mode = i.operand.mode ∧ row.mnemonic = i.mnemonic) ∧
    (∀ j : Instr, j.opcode = i.opcode → j.mnemonic = i.mnemonic ∧ j.operand.mode = i.operand.mode ∧ j.length = i.length)

/-- R231 (decision D2): the dispatch-table entry of every instruction has the cost that `baseCycles` gives its mnemonic
and mode, from R281's list, from R180 for the branches and from the table's `cycles` field for the rest; every cost is
from 2 to 7. -/
def Obligations.CycleCostsAreThoseListed : Prop :=
  ∀ i : Instr, ∃ row n, tableEntry i.opcode = some row ∧
    baseCycles i.mnemonic i.operand.mode = some n ∧ row.cycles = n ∧ 2 ≤ n ∧ n ≤ 7

/-! ### Fetch, the loop and the call (spec/49_dispatch_loop.md) -/

/-- A step runs the decoded instruction (R233 to R235, R243; R81 and decision D4 for the fetch). In a running call with
`p != 0` and budget left, where no byte of the instruction at `pc` is special and the bytes there decode to `i`, the step is
`exec i` with `pc` past the instruction and the cost deducted. In every such call, special bytes or not: the opcode byte is
fetched, the cost of its table entry is deducted, and the step is `exec` of the instruction that the entry builds from the
0, 1 or 2 operand bytes of its mode, fetched one after the other; where `fetchInstr` answers an instruction, the step is its
`exec`. One fetch reads through the decoder, where it may trap, and advances `pc` modulo 2^16. -/
def Obligations.StepRunsTheDecodedInstruction : Prop :=
  (∀ (st : State) (ticks : Int) (i : Instr) (rest : List Byte) (row : TableRow),
    st.phase = .running ticks → st.work.p ≠ 0x00 → 0 < st.budget →
    (∀ k < i.length, ¬ st.isSpecial (st.work.pc + BitVec.ofNat 16 k)) →
    decode [st.byteAt st.work.pc, st.byteAt (st.work.pc + 1), st.byteAt (st.work.pc + 2)] = .ok (i, rest) →
    tableEntry (st.byteAt st.work.pc) = some row →
    step st = exec i { st with
      work := { st.work with pc := st.work.pc + BitVec.ofNat 16 i.length }
      budget := st.budget - row.cycles }) ∧
  (∀ (st st' : State) (ticks : Int) (i : Instr),
    st.phase = .running ticks → st.work.p ≠ 0x00 → 0 < st.budget → fetchInstr st = .legal i st' → step st = exec i st') ∧
  (∀ (st : State) (ticks : Int) (row : TableRow),
    st.phase = .running ticks → st.work.p ≠ 0x00 → 0 < st.budget → tableEntry (fetchByte st).1 = some row →
    let charged : State := { (fetchByte st).2 with budget := st.budget - row.cycles }
    let b1 := fetchByte charged
    let b2 := fetchByte b1.2
    (row.mode.operandBytes = 0 → step st = exec (row.build 0 0) charged) ∧
    (row.mode.operandBytes = 1 → step st = exec (row.build b1.1 0) b1.2) ∧
    (row.mode.operandBytes = 2 → step st = exec (row.build b1.1 b2.1) b2.2)) ∧
  (∀ st : State, fetchByte st =
    ((memRead st.work.pc st).1, { (memRead st.work.pc st).2 with work := { st.work with pc := st.work.pc + 1 } }))

/-- R233 and R251 (decisions D4, D15): an illegal opcode byte ends the call with `HaltedIllegalOpcode`; `pc` is just past
it, no cycle is charged, no register but `pc` changes, and nothing is accessed but the byte itself (which may trap). -/
def Obligations.IllegalOpcodeHaltsTheCall : Prop :=
  ∀ (st : State) (ticks : Int),
    st.phase = .running ticks → st.work.p ≠ 0x00 → 0 < st.budget → tableEntry (memRead st.work.pc st).1 = none →
    step st = .next { (memRead st.work.pc st).2 with
      work := { st.work with pc := st.work.pc + 1 }
      record := { st.work with pc := st.work.pc + 1 }
      tickBudget := st.budget
      phase := .idle
      result := some { ticksConsumed := ticks - st.budget, status := .haltedIllegalOpcode } }

/-- R232 (decision D14): entering a call copies the registers from the VM record and sets the budget to `ticks`, whatever
`tick_budget` held. Model's choices in it: the record's `tick_budget` is set to `ticks` too (log 10), a call the host has
not configured is refused (log 9), and between calls a step changes nothing (log 11). -/
def Obligations.EntryCopiesTheRecord : Prop :=
  ∀ st : State,
    (st.phase = .idle → step st = .next st) ∧
    (∀ ticks, st.phase = .entering ticks → st.launchable →
      step st = .next { st with
        work := st.record, budget := ticks, tickBudget := ticks, phase := .running ticks, result := none }) ∧
    (∀ ticks, st.phase = .entering ticks → ¬ st.launchable → step st = .refused .launchNotConfigured)

/-- R236 and R237 (decision D15; the budget test is the spec's reading, C1): before an instruction `p = 0` stops the call
with `Stopped`, tested first; then a budget that is not positive stops it with `Exhausted`. -/
def Obligations.StopTestsInOrder : Prop :=
  ∀ (st : State) (ticks : Int), st.phase = .running ticks →
    (st.work.p = 0x00 →
      step st = .next { st with
        record := st.work, tickBudget := st.budget, phase := .idle
        result := some { ticksConsumed := ticks - st.budget, status := .stopped } }) ∧
    (st.work.p ≠ 0x00 → st.budget ≤ 0 →
      step st = .next { st with
        record := st.work, tickBudget := st.budget, phase := .idle
        result := some { ticksConsumed := ticks - st.budget, status := .exhausted } })

/-- R238: whenever a step of a running call leaves it, for whatever status, the working registers and the working budget,
which may be negative, stand in the VM record, and the exit itself changes no register but `pc`, which is past an illegal
byte. -/
def Obligations.ExitFlushesTheWorkingState : Prop :=
  ∀ (st t : State) (ticks : Int), st.phase = .running ticks → step st = .next t → t.phase = .idle →
    t.record = t.work ∧ t.tickBudget = t.budget ∧ t.budget = st.budget ∧
    (∃ status, t.result = some { ticksConsumed := ticks - t.tickBudget, status := status } ∧
      t.work = if status = .haltedIllegalOpcode then { st.work with pc := st.work.pc + 1 } else st.work)

/-- R35 (decision D30): while a call runs, the VM record's registers and tick budget keep their entry values. -/
def Obligations.RecordKeepsItsEntryValuesDuringACall : Prop :=
  ∀ (st t : State) (ticks : Int), st.phase = .running ticks → step st = .next t → t.phase ≠ .idle →
    t.phase = .running ticks ∧ t.record = st.record ∧ t.tickBudget = st.tickBudget ∧ t.result = st.result

/-- R61 and R250: no access and no instruction faults. Every step answers a next state, but for the entry of a call that
the host has not configured (log 9). -/
def Obligations.EveryStepAnswersANextState : Prop :=
  ∀ st : State, (∃ t, step st = .next t) ∨ (∃ ticks, st.phase = .entering ticks ∧ ¬ st.launchable)

/-- R9 and R239, on unbounded tick counts (decision D28, log 16): a call that is configured as log 9 says always comes to
an end within `ticks` instructions and answers `(ticks_consumed, status)`. With `ticks <= 0` or `p = 0` nothing runs;
otherwise an exhausted call consumed from `ticks` to `ticks + 6`, and a halted one less than `ticks`. -/
def Obligations.CallEndsWithinItsBudget : Prop :=
  ∀ (st : State) (ticks : Int), st.phase = .idle → st.launchable →
    ∃ t r, execute ticks st = some (.next t) ∧ t.phase = .idle ∧ t.result = some r ∧
      r.ticksConsumed = ticks - t.tickBudget ∧ 0 ≤ r.ticksConsumed ∧
      (ticks ≤ 0 ∨ st.record.p = 0x00 → r.ticksConsumed = 0 ∧ t.record = st.record ∧ t.memory = st.memory) ∧
      (0 < ticks → st.record.p ≠ 0x00 → r.status = .exhausted →
        ticks ≤ r.ticksConsumed ∧ r.ticksConsumed ≤ ticks + 6) ∧
      (r.status = .haltedIllegalOpcode → r.ticksConsumed < ticks)

/-- R242 (C8): additivity with the debt carried. If `execute(n1)` ends exhausted and `execute(n2 + tick_budget)` follows,
the end state is that of one `execute(n1 + n2)`, but for what the call answered. "The callbacks answer the same way" is
said as: every trap of the single call is answered from the host's list `hostAnswers` (log 5), not from a free value
(which may look at the VM record, R35). The premise `0 <= n2` is needed: with a negative `n2` the first call may run past
the sum. -/
def Obligations.CallsAddUpWhenTheDebtIsCarried : Prop :=
  ∀ (st s1 s2 t : State) (n1 n2 : Int) (c1 : Int),
    st.phase = .idle → 0 ≤ n2 →
    execute n1 st = some (.next s1) → s1.result = some { ticksConsumed := c1, status := .exhausted } →
    execute (n2 + s1.tickBudget) s1 = some (.next s2) →
    execute (n1 + n2) st = some (.next t) →
    t.trapLog.length ≤ st.trapLog.length + st.hostAnswers.length →
    t = { s2 with result := t.result } ∧
    ∃ r2 r, s2.result = some r2 ∧ t.result = some r ∧ r.status = r2.status ∧
      r.ticksConsumed = c1 + r2.ticksConsumed

/-- R263: `execute(1)` with `p != 0` runs exactly one instruction: the entry, one fetch, one `exec`, and the exit that the
test after it gives; an illegal byte halts it. -/
def Obligations.ExecuteOneRunsOneInstruction : Prop :=
  ∀ st : State, st.phase = .idle → st.launchable → st.record.p ≠ 0x00 →
    (∀ i s' t, fetchInstr (enterCall 1 st) = .legal i s' → exec i s' = .next t →
      execute 1 st = some (.next (exitCall 1 (if t.work.p = 0x00 then .stopped else .exhausted) t))) ∧
    (∀ s', fetchInstr (enterCall 1 st) = .illegal s' →
      execute 1 st = some (.next (exitCall 1 .haltedIllegalOpcode s')))

/-! ### Logical, shift, INC, DEC, BIT (spec/41_logical_shift_bit.md) -/

/-- R27: `setzn(v)` sets Z exactly when `v = 0` and N to bit 7 of `v`, and changes no other bit of `p`. -/
def Obligations.SetznSetsOnlyZeroAndNegative : Prop :=
  ∀ v p : Byte, setzn v p = flagsNZ v p

/-- R110, R111, R112: ORA, AND, EOR complete in every form. `a` becomes the result, N and Z follow it, every other flag
and register stays; the rest of the state is what loading the operand leaves. Their opcode bytes are the rules'. -/
def Obligations.LogicalOperationsResult : Prop :=
  (∀ (st : State) (b : Byte),
    exec (.oraImm b) st = .next { st with work := { st.work with
      a := st.work.a ||| b, p := flagsNZ (st.work.a ||| b) st.work.p } } ∧
    exec (.andImm b) st = .next { st with work := { st.work with
      a := st.work.a &&& b, p := flagsNZ (st.work.a &&& b) st.work.p } } ∧
    exec (.eorImm b) st = .next { st with work := { st.work with
      a := st.work.a ^^^ b, p := flagsNZ (st.work.a ^^^ b) st.work.p } }) ∧
  (∀ (i : Instr) (e : Ea) (st : State), i.operand = .mem e →
    (i.mnemonic = .ora → exec i st = .next { (loadEa e st).2 with work := { st.work with
      a := st.work.a ||| (loadEa e st).1, p := flagsNZ (st.work.a ||| (loadEa e st).1) st.work.p } }) ∧
    (i.mnemonic = .and → exec i st = .next { (loadEa e st).2 with work := { st.work with
      a := st.work.a &&& (loadEa e st).1, p := flagsNZ (st.work.a &&& (loadEa e st).1) st.work.p } }) ∧
    (i.mnemonic = .eor → exec i st = .next { (loadEa e st).2 with work := { st.work with
      a := st.work.a ^^^ (loadEa e st).1, p := flagsNZ (st.work.a ^^^ (loadEa e st).1) st.work.p } })) ∧
  (∀ (b : Byte) (w : Word),
    [Instr.oraImm b, .oraZp b, .oraZpX b, .oraAbs w, .oraAbsX w, .oraAbsY w, .oraIndX b, .oraIndY b].map Instr.opcode =
      [0x09, 0x05, 0x15, 0x0D, 0x1D, 0x19, 0x01, 0x11] ∧
    [Instr.andImm b, .andZp b, .andZpX b, .andAbs w, .andAbsX w, .andAbsY w, .andIndX b, .andIndY b].map Instr.opcode =
      [0x29, 0x25, 0x35, 0x2D, 0x3D, 0x39, 0x21, 0x31] ∧
    [Instr.eorImm b, .eorZp b, .eorZpX b, .eorAbs w, .eorAbsX w, .eorAbsY w, .eorIndX b, .eorIndY b].map Instr.opcode =
      [0x49, 0x45, 0x55, 0x4D, 0x5D, 0x59, 0x41, 0x51])

/-- R114 to R118: LSR, ROL, ROR (accumulator and memory forms), INC and DEC (memory forms) complete in every form, with the
result and C, N, Z as the rules give them. A memory form reads the byte once and writes the result to the same address;
the flags are those of the computed result, stored or not. Their opcode bytes are the rules'. -/
def Obligations.ReadModifyWriteResult : Prop :=
  (∀ st : State,
    exec .lsrAcc st = .next { st with work := { st.work with
      a := st.work.a >>> 1, p := flagsNZC (st.work.a >>> 1) (st.work.a.getLsbD 0) st.work.p } } ∧
    exec .rolAcc st = .next { st with work := { st.work with
      a := st.work.a <<< 1 ||| (BitVec.ofBool (flagC st.work.p)).setWidth 8
      p := flagsNZC (st.work.a <<< 1 ||| (BitVec.ofBool (flagC st.work.p)).setWidth 8) (st.work.a.getLsbD 7)
        st.work.p } } ∧
    exec .rorAcc st = .next { st with work := { st.work with
      a := st.work.a >>> 1 ||| (BitVec.ofBool (flagC st.work.p)).setWidth 8 <<< 7
      p := flagsNZC (st.work.a >>> 1 ||| (BitVec.ofBool (flagC st.work.p)).setWidth 8 <<< 7) (st.work.a.getLsbD 0)
        st.work.p } }) ∧
  (∀ (i : Instr) (e : Ea) (st : State), i.operand = .mem e →
    let old := loadEa e st
    let v := old.1
    let cin : Byte := (BitVec.ofBool (flagC st.work.p)).setWidth 8
    let ends := fun (r p : Byte) =>
      ({ memWrite (resolve e st).1 r old.2 with work := { st.work with p := p } } : State)
    (i.mnemonic = .lsr → exec i st = .next (ends (v >>> 1) (flagsNZC (v >>> 1) (v.getLsbD 0) st.work.p))) ∧
    (i.mnemonic = .rol →
      exec i st = .next (ends (v <<< 1 ||| cin) (flagsNZC (v <<< 1 ||| cin) (v.getLsbD 7) st.work.p))) ∧
    (i.mnemonic = .ror →
      exec i st = .next (ends (v >>> 1 ||| cin <<< 7) (flagsNZC (v >>> 1 ||| cin <<< 7) (v.getLsbD 0) st.work.p))) ∧
    (i.mnemonic = .inc → exec i st = .next (ends (v + 1) (flagsNZ (v + 1) st.work.p))) ∧
    (i.mnemonic = .dec → exec i st = .next (ends (v - 1) (flagsNZ (v - 1) st.work.p)))) ∧
  (∀ (b : Byte) (w : Word),
    [Instr.lsrAcc, .lsrZp b, .lsrZpX b, .lsrAbs w, .lsrAbsX w].map Instr.opcode = [0x4A, 0x46, 0x56, 0x4E, 0x5E] ∧
    [Instr.rolAcc, .rolZp b, .rolZpX b, .rolAbs w, .rolAbsX w].map Instr.opcode = [0x2A, 0x26, 0x36, 0x2E, 0x3E] ∧
    [Instr.rorAcc, .rorZp b, .rorZpX b, .rorAbs w, .rorAbsX w].map Instr.opcode = [0x6A, 0x66, 0x76, 0x6E, 0x7E] ∧
    [Instr.incZp b, .incZpX b, .incAbs w, .incAbsX w].map Instr.opcode = [0xE6, 0xF6, 0xEE, 0xFE] ∧
    [Instr.decZp b, .decZpX b, .decAbs w, .decAbsX w].map Instr.opcode = [0xC6, 0xD6, 0xCE, 0xDE])

/-- R113 (its memory form rests on decision D5: one read, one write): ASL completes in every form; bit 7 goes to C and bit 0
of the result is 0. The opcode bytes are the rule's (decision D1). -/
def Obligations.ShiftLeftResult : Prop :=
  (∀ st : State,
    exec .aslAcc st = .next { st with work := { st.work with
      a := st.work.a <<< 1, p := flagsNZC (st.work.a <<< 1) (st.work.a.getLsbD 7) st.work.p } }) ∧
  (∀ (i : Instr) (e : Ea) (st : State), i.mnemonic = .asl → i.operand = .mem e →
    exec i st = .next { memWrite (resolve e st).1 ((loadEa e st).1 <<< 1) (loadEa e st).2 with
      work := { st.work with
        p := flagsNZC ((loadEa e st).1 <<< 1) ((loadEa e st).1.getLsbD 7) st.work.p } }) ∧
  (∀ (b : Byte) (w : Word), [Instr.aslAcc, .aslZp b, .aslZpX b, .aslAbs w, .aslAbsX w].map Instr.opcode =
    [0x0A, 0x06, 0x16, 0x0E, 0x1E])

/-- R119: BIT completes in both forms. N and V are bits 7 and 6 of the memory byte, Z is that `m & a` is 0; `a` and the
other flags stay. The opcode bytes are the rule's. -/
def Obligations.BitTestResult : Prop :=
  (∀ (i : Instr) (e : Ea) (st : State), i.mnemonic = .bit → i.operand = .mem e →
    exec i st = .next { (loadEa e st).2 with work := { st.work with
      p := flagsNVZC ((loadEa e st).1.getLsbD 7) ((loadEa e st).1.getLsbD 6) ((loadEa e st).1 &&& st.work.a = 0)
        (flagC st.work.p) st.work.p } }) ∧
  (∀ (b : Byte) (w : Word), [Instr.bitZp b, .bitAbs w].map Instr.opcode = [0x24, 0x2C])

/-! ### Compare (spec/42_compare.md) -/

/-- R130 to R133: CMP, CPX and CPY complete in every form. C is register >= operand (unsigned), Z is equality, N is bit 7
of the low byte of the difference; no register but `p` changes, and V, D, I, B, U stay. The opcode
bytes are the rules'. -/
def Obligations.CompareResult : Prop :=
  (∀ (st : State) (b : Byte),
    let flags := fun r : Byte => flagsNVZC ((r - b).getLsbD 7) (flagV st.work.p) (r = b) (b.toNat ≤ r.toNat) st.work.p
    exec (.cmpImm b) st = .next { st with work := { st.work with p := flags st.work.a } } ∧
    exec (.cpxImm b) st = .next { st with work := { st.work with p := flags st.work.x } } ∧
    exec (.cpyImm b) st = .next { st with work := { st.work with p := flags st.work.y } }) ∧
  (∀ (i : Instr) (e : Ea) (st : State), i.operand = .mem e →
    let m := (loadEa e st).1
    let flags := fun r : Byte => flagsNVZC ((r - m).getLsbD 7) (flagV st.work.p) (r = m) (m.toNat ≤ r.toNat) st.work.p
    (i.mnemonic = .cmp → exec i st = .next { (loadEa e st).2 with work := { st.work with p := flags st.work.a } }) ∧
    (i.mnemonic = .cpx → exec i st = .next { (loadEa e st).2 with work := { st.work with p := flags st.work.x } }) ∧
    (i.mnemonic = .cpy → exec i st = .next { (loadEa e st).2 with work := { st.work with p := flags st.work.y } })) ∧
  (∀ (b : Byte) (w : Word),
    [Instr.cmpImm b, .cmpZp b, .cmpZpX b, .cmpAbs w, .cmpAbsX w, .cmpAbsY w, .cmpIndX b, .cmpIndY b].map Instr.opcode =
      [0xC9, 0xC5, 0xD5, 0xCD, 0xDD, 0xD9, 0xC1, 0xD1] ∧
    [Instr.cpxImm b, .cpxZp b, .cpxAbs w].map Instr.opcode = [0xE0, 0xE4, 0xEC] ∧
    [Instr.cpyImm b, .cpyZp b, .cpyAbs w].map Instr.opcode = [0xC0, 0xC4, 0xCC])

/-! ### ADC, SBC, decimal mode (spec/43_arithmetic_bcd.md) -/

/-- R140: the binary adder. The result is the sum modulo 2^8, C is that the sum exceeds 0xFF, V is that the signed sum lies
outside -128..127, Z and N are those of the result. -/
def Obligations.BinaryAdderResult : Prop :=
  ∀ (a m : Byte) (cin : Bool),
    addBin a m cin =
      { r := BitVec.ofNat 8 (a.toNat + m.toNat + carryNat cin)
        c := 255 < a.toNat + m.toNat + carryNat cin
        v := sext8 a + sext8 m + carryNat cin < -128 ∨ 127 < sext8 a + sext8 m + carryNat cin
        z := (a.toNat + m.toNat + carryNat cin) % 256 = 0
        n := 128 ≤ (a.toNat + m.toNat + carryNat cin) % 256 }

/-- R143: ADC completes in every form, with the result and the flags N, V, Z, C of the decimal adder when `p.D` is set and
of the binary one when it is not; D, I, B, U stay. The opcode bytes are the rule's. -/
def Obligations.AddWithCarryResult : Prop :=
  (∀ (st : State) (b : Byte),
    let res := if flagD st.work.p then addDec st.work.a b (flagC st.work.p) else addBin st.work.a b (flagC st.work.p)
    exec (.adcImm b) st = .next { st with work := { st.work with
      a := res.r, p := flagsNVZC res.n res.v res.z res.c st.work.p } }) ∧
  (∀ (i : Instr) (e : Ea) (st : State), i.mnemonic = .adc → i.operand = .mem e →
    let m := (loadEa e st).1
    let res := if flagD st.work.p then addDec st.work.a m (flagC st.work.p) else addBin st.work.a m (flagC st.work.p)
    exec i st = .next { (loadEa e st).2 with work := { st.work with
      a := res.r, p := flagsNVZC res.n res.v res.z res.c st.work.p } }) ∧
  (∀ (b : Byte) (w : Word),
    [Instr.adcImm b, .adcZp b, .adcZpX b, .adcAbs w, .adcAbsX w, .adcAbsY w, .adcIndX b, .adcIndY b].map Instr.opcode =
      [0x69, 0x65, 0x75, 0x6D, 0x7D, 0x79, 0x61, 0x71])

/-- R144 (decision D7): SBC completes in every form. In binary mode the result is `a - m + cin - 1` modulo 2^8, C is that
this difference is not negative, V is that the signed difference lies outside -128..127; in decimal mode the result is
`SubDec`'s (R142, decision D8) and the four flags are the binary ones. The opcode bytes are the rule's (decision
D1). -/
def Obligations.SubtractWithBorrowResult : Prop :=
  let ends := fun (m : Byte) (old : State) (w : Regs) =>
    let d : Int := (w.a.toNat : Int) - m.toNat + carryNat (flagC w.p) - 1
    let sd : Int := sext8 w.a - sext8 m + carryNat (flagC w.p) - 1
    ({ old with work := { w with
        a := if flagD w.p then (subDec w.a m (flagC w.p)).r else BitVec.ofInt 8 d
        p := flagsNVZC ((BitVec.ofInt 8 d).getLsbD 7) (sd < -128 ∨ 127 < sd) (BitVec.ofInt 8 d = 0) (0 ≤ d) w.p } } :
      State)
  (∀ (st : State) (b : Byte), exec (.sbcImm b) st = .next (ends b st st.work)) ∧
  (∀ (i : Instr) (e : Ea) (st : State), i.mnemonic = .sbc → i.operand = .mem e →
    exec i st = .next (ends (loadEa e st).1 (loadEa e st).2 st.work)) ∧
  (∀ (b : Byte) (w : Word),
    [Instr.sbcImm b, .sbcZp b, .sbcZpX b, .sbcAbs w, .sbcAbsX w, .sbcAbsY w, .sbcIndX b, .sbcIndY b].map Instr.opcode =
      [0xE9, 0xE5, 0xF5, 0xED, 0xFD, 0xF9, 0xE1, 0xF1])

/-- R141, R142 (decision D8) on valid decimal bytes (R146): the decimal cores add and subtract decimal numbers modulo 100;
the carry out of the sum is that it reaches 100, that of the difference that it is not negative. -/
def Obligations.DecimalCoresComputeInDecimal : Prop :=
  ∀ (a m : Byte) (cin : Bool), isBcd a → isBcd m →
    (let n := bcdValue a + bcdValue m + carryNat cin
     isBcd (addDec a m cin).r ∧ bcdValue (addDec a m cin).r = n % 100 ∧ (addDec a m cin).c = decide (100 ≤ n)) ∧
    (let n : Int := (bcdValue a : Int) - bcdValue m + carryNat cin - 1
     isBcd (subDec a m cin).r ∧ (bcdValue (subDec a m cin).r : Int) = n % 100 ∧
       (subDec a m cin).c = decide (0 ≤ n))

/-- R141, R142, R146 (decision D8) on every pair of bytes, decimal or not, written on the numbers of the nibbles. Decimal
addition: the low nibbles' sum is corrected and carries into the high ones, N and V are those of the signed sum of the high
nibbles and that sum, before the high correction, Z is that of the binary sum, C that of the corrected one. Decimal
subtraction: both nibbles are corrected, and C, V, Z and N are those of the binary difference. -/
def Obligations.DecimalCoresOnEveryByte : Prop :=
  ∀ (a m : Byte) (cin : Bool),
    let signedHigh := fun b : Byte => if b.toNat < 128 then (16 * (b.toNat / 16) : Int) else 16 * (b.toNat / 16 : Int) - 256
    (let low := a.toNat % 16 + m.toNat % 16 + carryNat cin
     let al := if low < 10 then low else (low + 6) % 16 + 16
     let t := 16 * (a.toNat / 16) + 16 * (m.toNat / 16) + al
     let sum := if t < 160 then t else t + 96
     let ts := signedHigh a + signedHigh m + al
     (addDec a m cin).r.toNat = sum % 256 ∧
     ((addDec a m cin).c = true ↔ 256 ≤ sum) ∧
     ((addDec a m cin).n = true ↔ 128 ≤ ts % 256) ∧
     ((addDec a m cin).v = true ↔ ts < -128 ∨ 127 < ts) ∧
     ((addDec a m cin).z = true ↔ (a.toNat + m.toNat + carryNat cin) % 256 = 0)) ∧
    (let low : Int := (a.toNat % 16 : Int) - (m.toNat % 16 : Int) + carryNat cin - 1
     let al := if low < 0 then (low - 6) % 16 - 16 else low
     let t := (16 * (a.toNat / 16) : Int) - (16 * (m.toNat / 16) : Int) + al
     let d : Int := (a.toNat : Int) - m.toNat + carryNat cin - 1
     let sd : Int := sext8 a - sext8 m + carryNat cin - 1
     ((subDec a m cin).r.toNat : Int) = (if t < 0 then t - 96 else t) % 256 ∧
     ((subDec a m cin).c = true ↔ 0 ≤ d) ∧
     ((subDec a m cin).v = true ↔ sd < -128 ∨ 127 < sd) ∧
     ((subDec a m cin).z = true ↔ d % 256 = 0) ∧
     ((subDec a m cin).n = true ↔ 128 ≤ d % 256))

/-! ### Stack, subroutine, BRK and RTI (spec/44_stack_subroutine.md) -/

/-- R62, R63: push stores at `0x0100 + s`, then decrements `s` modulo 2^8; pull increments `s` modulo 2^8, then loads from
`0x0100 + s`. Nothing else of the registers changes. -/
def Obligations.PushStoresThenPullLoads : Prop :=
  ∀ (st : State) (v : Byte),
    push v st = { memWrite (0x0100 + st.work.s.setWidth 16) v st with
      work := { st.work with s := st.work.s - 1 } } ∧
    pull st = ((memRead (0x0100 + (st.work.s + 1).setWidth 16) st).1,
      { (memRead (0x0100 + (st.work.s + 1).setWidth 16) st).2 with work := { st.work with s := st.work.s + 1 } })

/-- R160, R164, R165: PHA, JSR and RTS complete. PHA pushes `a`; JSR pushes the address of its last byte, high byte first,
and goes to its target; RTS pulls an address, low byte first, and goes to the address after it. No flag changes. (`pc` is
the address after the instruction when it executes, so JSR pushes `pc - 1`.) The opcode bytes are the rules'. -/
def Obligations.PushAndSubroutineResult : Prop :=
  (∀ (st : State) (w : Word),
    let slot := fun s : Byte => (0x0100 : Word) + s.setWidth 16
    let s := st.work.s
    let ret := st.work.pc - 1
    let lo := memRead (slot (s + 1)) st
    let hi := memRead (slot (s + 2)) lo.2
    exec .pha st = .next { memWrite (slot s) st.work.a st with work := { st.work with s := s - 1 } } ∧
    exec (.jsr w) st = .next { memWrite (slot (s - 1)) (loByte ret) (memWrite (slot s) (hiByte ret) st) with
      work := { st.work with s := s - 2, pc := w } } ∧
    exec .rts st = .next { hi.2 with work := { st.work with s := s + 2, pc := wordOf hi.1 lo.1 + 1 } }) ∧
  (∀ w : Word, [Instr.pha, .jsr w, .rts].map Instr.opcode = [0x48, 0x20, 0x60])

/-- R161, R162, R163 (decisions D11, D12, D13): PLA, PHP and PLP complete. PLA pulls into `a` and sets N and Z; PHP pushes
`p` with U and B set and leaves `p` alone; PLP loads all eight bits. The opcode bytes are the rules'
(decision D1). -/
def Obligations.StatusAndPullResult : Prop :=
  ∀ st : State,
    let slot := fun s : Byte => (0x0100 : Word) + s.setWidth 16
    let s := st.work.s
    let m := memRead (slot (s + 1)) st
    exec .pla st = .next { m.2 with work := { st.work with s := s + 1, a := m.1, p := flagsNZ m.1 st.work.p } } ∧
    exec .php st = .next { memWrite (slot s) (st.work.p ||| 0x30) st with work := { st.work with s := s - 1 } } ∧
    exec .plp st = .next { m.2 with work := { st.work with s := s + 1, p := m.1 } } ∧
    [Instr.pla, .php, .plp].map Instr.opcode = [0x68, 0x08, 0x28]

/-- R166, R252 (decisions D9, D10): BRK completes by taking its trap. It pushes the address after its opcode byte, high byte
first, then `p` with U, B and I set; B and I are set in `p`; `pc` is the word at 0xFFFE; `a`, `x`, `y` and the other flags
stay. Its opcode byte is 0x00 (decision D1). -/
def Obligations.BreakTakesItsTrap : Prop :=
  ∀ st : State,
    let slot := fun s : Byte => (0x0100 : Word) + s.setWidth 16
    let s := st.work.s
    let pushed := memWrite (slot (s - 2)) (st.work.p ||| 0x34) (memWrite (slot (s - 1)) (loByte st.work.pc)
      (memWrite (slot s) (hiByte st.work.pc) st))
    let lo := memRead 0xFFFE pushed
    let hi := memRead 0xFFFF lo.2
    exec .brk st = .next
      { hi.2 with work := { st.work with pc := wordOf hi.1 lo.1, s := s - 3, p := st.work.p ||| 0x14 } } ∧
    Instr.brk.opcode = 0x00

/-- R167, R253 (decision D12): RTI completes. It pulls all eight bits of `p`, then `pc`, low byte first, with nothing
added. Its opcode byte is 0x40 (decision D1). -/
def Obligations.ReturnFromBreakRestores : Prop :=
  ∀ st : State,
    let slot := fun s : Byte => (0x0100 : Word) + s.setWidth 16
    let s := st.work.s
    let flags := memRead (slot (s + 1)) st
    let lo := memRead (slot (s + 2)) flags.2
    let hi := memRead (slot (s + 3)) lo.2
    exec .rti st = .next { hi.2 with work := { st.work with p := flags.1, pc := wordOf hi.1 lo.1, s := s + 3 } } ∧
    Instr.rti.opcode = 0x40

/-- The stack laws of spec/95_test_vectors.md L1-7 on a stack slot in RAM (C5 for PHP): PHA then PLA restores `a`, `s` and
the other registers, with N and Z of `a`; PHP then PLP restores all of them but bits 4 and 5 of `p`, which become 1. -/
def Obligations.PushThenPullRestores : Prop :=
  ∀ st : State, Memory.wf st.memory → st.isRam (stackAddr st.work.s) →
    (∃ t u, exec .pha st = .next t ∧ exec .pla t = .next u ∧
      u.work = { st.work with p := flagsNZ st.work.a st.work.p }) ∧
    (∃ t u, exec .php st = .next t ∧ exec .plp t = .next u ∧ u.work = { st.work with p := st.work.p ||| 0x30 })

/-- The law of R165 on stack slots in RAM: JSR then RTS restores `s`, leaves the other registers alone and continues at the
byte after the JSR. -/
def Obligations.SubroutineReturnsBehindItsCall : Prop :=
  ∀ (st : State) (w : Word), Memory.wf st.memory →
    st.isRam (stackAddr st.work.s) → st.isRam (stackAddr (st.work.s - 1)) →
    ∃ t u, exec (.jsr w) st = .next t ∧ t.work.pc = w ∧ exec .rts t = .next u ∧ u.work = st.work

/-- R166, R167, R253 (decisions D9 to D12) on stack slots in RAM and a vector that does not trap: RTI after BRK restores `s`
and continues behind the BRK, with B, U and I set in `p`. -/
def Obligations.ReturnBehindTheBreak : Prop :=
  ∀ st : State, Memory.wf st.memory →
    st.isRam (stackAddr st.work.s) → st.isRam (stackAddr (st.work.s - 1)) → st.isRam (stackAddr (st.work.s - 2)) →
    ¬ st.isSpecial 0xFFFE → ¬ st.isSpecial 0xFFFF →
    ∃ t u, exec .brk st = .next t ∧ exec .rti t = .next u ∧ u.work = { st.work with p := st.work.p ||| 0x34 }

/-! ### Branches and JMP (spec/45_branch_jump.md) -/

/-- R180 to R188: the eight branches complete, each on its flag. Taken: `pc` is the address after the instruction plus the
signed displacement, modulo 2^16, and one cycle more is deducted; not taken: nothing changes. No flag is written. The base
cost is 2 and the opcode bytes are the rules'. -/
def Obligations.BranchResult : Prop :=
  (∀ (st : State) (b : Byte),
    let result := fun taken : Bool =>
      if taken then
        ({ st with
          work := { st.work with pc := BitVec.ofInt 16 (st.work.pc.toNat + sext8 b) }
          budget := st.budget - 1 } : State)
      else st
    exec (.bpl b) st = .next (result !(flagN st.work.p)) ∧ exec (.bmi b) st = .next (result (flagN st.work.p)) ∧
    exec (.bvc b) st = .next (result !(flagV st.work.p)) ∧ exec (.bvs b) st = .next (result (flagV st.work.p)) ∧
    exec (.bcc b) st = .next (result !(flagC st.work.p)) ∧ exec (.bcs b) st = .next (result (flagC st.work.p)) ∧
    exec (.bne b) st = .next (result !(flagZ st.work.p)) ∧ exec (.beq b) st = .next (result (flagZ st.work.p))) ∧
  (∀ b : Byte,
    let branches : List Instr := [.bpl b, .bmi b, .bvc b, .bvs b, .bcc b, .bcs b, .bne b, .beq b]
    branches.map Instr.opcode = [0x10, 0x30, 0x50, 0x70, 0x90, 0xB0, 0xD0, 0xF0] ∧
    ∀ i ∈ branches, ∃ row, tableEntry i.opcode = some row ∧ row.cycles = 2)

/-- R189, with R90 and R59 for the pointer (decision D22: no page wrap): JMP completes in both forms: `pc` is the operand
word, or the word the pointer read gives, its high byte from the next address modulo 2^16; nothing else of the registers
changes. The opcode bytes are the rule's. -/
def Obligations.JumpResult : Prop :=
  ∀ (st : State) (w : Word),
    let lo := memRead w st
    let hi := memRead (w + 1) lo.2
    exec (.jmpAbs w) st = .next { st with work := { st.work with pc := w } } ∧
    exec (.jmpInd w) st = .next { hi.2 with work := { st.work with pc := wordOf hi.1 lo.1 } } ∧
    [Instr.jmpAbs w, .jmpInd w].map Instr.opcode = [0x4C, 0x6C]

/-! ### Transfers and register increments (spec/46_transfer_incdec.md) -/

/-- R190 to R199: the transfers and the register increments and decrements complete. N and Z follow the value but for TSX
and TXS, which write no flag; no other register, flag or byte of memory changes. The opcode
bytes are the rules'. -/
def Obligations.TransferAndStepResult : Prop :=
  ∀ st : State,
    let w := st.work
    exec .tax st = .next { st with work := { w with x := w.a, p := flagsNZ w.a w.p } } ∧
    exec .txa st = .next { st with work := { w with a := w.x, p := flagsNZ w.x w.p } } ∧
    exec .tay st = .next { st with work := { w with y := w.a, p := flagsNZ w.a w.p } } ∧
    exec .tya st = .next { st with work := { w with a := w.y, p := flagsNZ w.y w.p } } ∧
    exec .tsx st = .next { st with work := { w with x := w.s } } ∧
    exec .txs st = .next { st with work := { w with s := w.x } } ∧
    exec .inx st = .next { st with work := { w with x := w.x + 1, p := flagsNZ (w.x + 1) w.p } } ∧
    exec .iny st = .next { st with work := { w with y := w.y + 1, p := flagsNZ (w.y + 1) w.p } } ∧
    exec .dex st = .next { st with work := { w with x := w.x - 1, p := flagsNZ (w.x - 1) w.p } } ∧
    exec .dey st = .next { st with work := { w with y := w.y - 1, p := flagsNZ (w.y - 1) w.p } } ∧
    [Instr.tax, .txa, .tay, .tya, .tsx, .txs, .inx, .iny, .dex, .dey].map Instr.opcode =
      [0xAA, 0x8A, 0xA8, 0x98, 0xBA, 0x9A, 0xE8, 0xC8, 0xCA, 0x88]

/-! ### Loads, stores, flag instructions, NOP (spec/47_load_store_flag_nop.md) -/

/-- R210, R211, R212 (decisions D3, D13): LDA, LDX and LDY complete in every form; the register becomes the operand, N and Z
follow it, everything else of the registers stays. The opcode bytes are the rules' (decision D1). -/
def Obligations.LoadResult : Prop :=
  (∀ (st : State) (b : Byte),
    exec (.ldaImm b) st = .next { st with work := { st.work with a := b, p := flagsNZ b st.work.p } } ∧
    exec (.ldxImm b) st = .next { st with work := { st.work with x := b, p := flagsNZ b st.work.p } } ∧
    exec (.ldyImm b) st = .next { st with work := { st.work with y := b, p := flagsNZ b st.work.p } }) ∧
  (∀ (i : Instr) (e : Ea) (st : State), i.operand = .mem e →
    let m := (loadEa e st).1
    (i.mnemonic = .lda →
      exec i st = .next { (loadEa e st).2 with work := { st.work with a := m, p := flagsNZ m st.work.p } }) ∧
    (i.mnemonic = .ldx →
      exec i st = .next { (loadEa e st).2 with work := { st.work with x := m, p := flagsNZ m st.work.p } }) ∧
    (i.mnemonic = .ldy →
      exec i st = .next { (loadEa e st).2 with work := { st.work with y := m, p := flagsNZ m st.work.p } })) ∧
  (∀ (b : Byte) (w : Word),
    [Instr.ldaImm b, .ldaZp b, .ldaZpX b, .ldaAbs w, .ldaAbsX w, .ldaAbsY w, .ldaIndX b, .ldaIndY b].map Instr.opcode =
      [0xA9, 0xA5, 0xB5, 0xAD, 0xBD, 0xB9, 0xA1, 0xB1] ∧
    [Instr.ldxImm b, .ldxZp b, .ldxZpY b, .ldxAbs w, .ldxAbsY w].map Instr.opcode = [0xA2, 0xA6, 0xB6, 0xAE, 0xBE] ∧
    [Instr.ldyImm b, .ldyZp b, .ldyZpX b, .ldyAbs w, .ldyAbsX w].map Instr.opcode = [0xA0, 0xA4, 0xB4, 0xAC, 0xBC])

/-- R213, R214, R215 (decisions D3, D5): STA, STX and STY complete in every form: one write of the register to the resolved
address, which is not read; no register and no flag changes. The opcode bytes are the rules' (decision D1). -/
def Obligations.StoreResult : Prop :=
  (∀ (i : Instr) (e : Ea) (st : State), i.operand = .mem e →
    let ea := resolve e st
    (i.mnemonic = .sta → exec i st = .next (memWrite ea.1 st.work.a ea.2)) ∧
    (i.mnemonic = .stx → exec i st = .next (memWrite ea.1 st.work.x ea.2)) ∧
    (i.mnemonic = .sty → exec i st = .next (memWrite ea.1 st.work.y ea.2)) ∧
    (i.mnemonic = .sta ∨ i.mnemonic = .stx ∨ i.mnemonic = .sty → ∀ t, exec i st = .next t → t.work = st.work)) ∧
  (∀ (b : Byte) (w : Word),
    [Instr.staZp b, .staZpX b, .staAbs w, .staAbsX w, .staAbsY w, .staIndX b, .staIndY b].map Instr.opcode =
      [0x85, 0x95, 0x8D, 0x9D, 0x99, 0x81, 0x91] ∧
    [Instr.stxZp b, .stxZpY b, .stxAbs w].map Instr.opcode = [0x86, 0x96, 0x8E] ∧
    [Instr.styZp b, .styZpX b, .styAbs w].map Instr.opcode = [0x84, 0x94, 0x8C])

/-- R216 to R223 (decisions D1, D3): the flag instructions and NOP complete; each flag instruction writes its own flag and
nothing else, NOP changes nothing. The opcode bytes are the rules'. -/
def Obligations.FlagInstructionsResult : Prop :=
  ∀ st : State,
    let p := st.work.p
    let flags := fun (v d i c : Bool) =>
      ({ st with work := { st.work with p := packFlags (flagN p) v (flagU p) (flagB p) d i (flagZ p) c } } : State)
    exec .clc st = .next (flags (flagV p) (flagD p) (flagI p) false) ∧
    exec .sec st = .next (flags (flagV p) (flagD p) (flagI p) true) ∧
    exec .cli st = .next (flags (flagV p) (flagD p) false (flagC p)) ∧
    exec .sei st = .next (flags (flagV p) (flagD p) true (flagC p)) ∧
    exec .clv st = .next (flags false (flagD p) (flagI p) (flagC p)) ∧
    exec .cld st = .next (flags (flagV p) false (flagI p) (flagC p)) ∧
    exec .sed st = .next (flags (flagV p) true (flagI p) (flagC p)) ∧
    exec .nop st = .next st ∧
    [Instr.clc, .sec, .cli, .sei, .clv, .cld, .sed, .nop].map Instr.opcode =
      [0x18, 0x38, 0x58, 0x78, 0xB8, 0xD8, 0xF8, 0xEA]

/-! ### The resolver (spec/30_encoding.md) -/

/-- R84 to R87 and R91: the modes without a pointer. zp is the operand byte; zp,X and zp,Y wrap in page 0; abs is the word;
abs,X and abs,Y add modulo 2^16; a branch target is `pc` after the operand plus the signed displacement modulo 2^16. No
memory is accessed. -/
def Obligations.DirectModesResolve : Prop :=
  ∀ (st : State) (b : Byte) (w : Word),
    (resolve (.zp b) st).1.toNat = b.toNat ∧
    (resolve (.zpX b) st).1.toNat = (b.toNat + st.work.x.toNat) % 256 ∧
    (resolve (.zpY b) st).1.toNat = (b.toNat + st.work.y.toNat) % 256 ∧
    (resolve (.abs w) st).1 = w ∧
    (resolve (.absX w) st).1.toNat = (w.toNat + st.work.x.toNat) % 65536 ∧
    (resolve (.absY w) st).1.toNat = (w.toNat + st.work.y.toNat) % 65536 ∧
    ((resolve (.rel b) st).1.toNat : Int) = (st.work.pc.toNat + sext8 b) % 65536 ∧
    (∀ e ∈ [Ea.zp b, .zpX b, .zpY b, .abs w, .absX w, .absY w, .rel b], (resolve e st).2 = st)

/-- R88, R89, R90 with the word read of R59 (decisions D22, D23): the pointer modes. Each reads the pointer's low byte and
then its high byte through `memRead`, and each of the two may trap (R66). The pointer of (zp,X) is `b + x`, not masked to
page 0; its high byte and those of (zp),Y and (abs) come from the next address modulo 2^16, across a page too; (zp),Y adds
`y` to the pointer word modulo 2^16. Where neither pointer byte is special, the word is that of memory and nothing else
changes. And a load in any mode is one `memRead` at the resolved address, in the state that resolving leaves (R93's
`LoadOperand(EA(e))`). -/
def Obligations.PointerModesResolve : Prop :=
  ∀ (st : State) (b : Byte) (w : Word),
    let word := fun n : Nat =>
      (Memory.read st.memory (n % 65536)).toNat + 256 * (Memory.read st.memory ((n + 1) % 65536)).toNat
    let quiet := fun n : Nat => ¬ st.isSpecial (BitVec.ofNat 16 n) ∧ ¬ st.isSpecial (BitVec.ofNat 16 (n + 1))
    (quiet (b.toNat + st.work.x.toNat) →
      (resolve (.indX b) st).1.toNat = word (b.toNat + st.work.x.toNat) ∧ (resolve (.indX b) st).2 = st) ∧
    (quiet b.toNat →
      (resolve (.indY b) st).1.toNat = (word b.toNat + st.work.y.toNat) % 65536 ∧ (resolve (.indY b) st).2 = st) ∧
    (quiet w.toNat → (resolve (.ind w) st).1.toNat = word w.toNat ∧ (resolve (.ind w) st).2 = st) ∧
    (let pair := fun n : Nat =>
      let lo := memRead (BitVec.ofNat 16 n) st
      let hi := memRead (BitVec.ofNat 16 (n + 1)) lo.2
      (wordOf hi.1 lo.1, hi.2)
     resolve (.indX b) st = pair (b.toNat + st.work.x.toNat) ∧
     resolve (.indY b) st = ((pair b.toNat).1 + st.work.y.setWidth 16, (pair b.toNat).2) ∧
     resolve (.ind w) st = pair w.toNat) ∧
    (∀ e : Ea, loadEa e st = memRead (resolve e st).1 (resolve e st).2)

/-! ### Memory and traps (spec/20_memory.md) -/

/-- R52: every access is classified by its address, the special range before ROM, ROM before RAM. Special reads and writes
trap, ROM and RAM reads read storage, RAM stores, ROM drops. -/
def Obligations.DecoderPriority : Prop :=
  ∀ (st : State) (addr : Word) (v : Byte),
    (st.classify addr = .special ↔ st.specialStart.val ≤ addr.toNat ∧ addr.toNat < st.specialEnd.val) ∧
    (st.classify addr = .rom ↔
      ¬ (st.specialStart.val ≤ addr.toNat ∧ addr.toNat < st.specialEnd.val) ∧ st.romBoundary.val ≤ addr.toNat) ∧
    (st.classify addr = .ram ↔
      ¬ (st.specialStart.val ≤ addr.toNat ∧ addr.toNat < st.specialEnd.val) ∧ addr.toNat < st.romBoundary.val) ∧
    (st.classify addr = .special →
      (memRead addr st).2.trapLog = .read addr (memRead addr st).1 :: st.trapLog ∧
      (memWrite addr v st).trapLog = .write addr v :: st.trapLog) ∧
    (st.classify addr ≠ .special → memRead addr st = (st.byteAt addr, st)) ∧
    (st.classify addr = .ram → memWrite addr v st = st.setByte addr v) ∧
    (st.classify addr = .rom → memWrite addr v st = st)

/-- R55 and R56 (decisions D17, D18, D19), byte by byte. A plain read answers the stored byte and changes nothing. A special
read answers the callback's byte, which is stored at that address even at or above `rom_boundary`, after the bytes the
callback changed. A RAM write stores its byte; a ROM write changes nothing; a special write changes only the bytes the
callback changes. In every case the registers, the budgets, the record and the configuration stay. `ans` is what the host
answers: its next listed answer, or the free value of Config (log 5). -/
def Obligations.AccessByClass : Prop :=
  ∀ (st : State) (addr k : Word) (v : Byte), Memory.wf st.memory →
    (¬ st.isSpecial addr → memRead addr st = (st.byteAt addr, st)) ∧
    (st.isSpecial addr →
      let ans := ({ st with specialEvent := { st.specialEvent with address := addr } } : State).readAnswer
      (memRead addr st).1 = ans.value ∧
      (memRead addr st).2.byteAt k =
        (if k = addr then ans.value else Memory.read (Memory.pokeAll st.memory ans.pokes) k.toNat) ∧
      (memRead addr st).2.trapLog = .read addr ans.value :: st.trapLog ∧
      (memRead addr st).2.hostAnswers = st.hostAnswers.tail) ∧
    (st.classify addr = .ram →
      (memWrite addr v st).byteAt k = (if k = addr then v else st.byteAt k) ∧
      memWrite addr v st = { st with memory := (memWrite addr v st).memory }) ∧
    (st.classify addr = .rom → memWrite addr v st = st) ∧
    (st.isSpecial addr →
      let ans := ({ st with specialEvent := { address := addr, value := v } } : State).writeAnswer
      (memWrite addr v st).memory = Memory.pokeAll st.memory ans.pokes ∧
      (memWrite addr v st).trapLog = .write addr v :: st.trapLog ∧
      (memWrite addr v st).hostAnswers = st.hostAnswers.tail) ∧
    (∀ t, t = (memRead addr st).2 ∨ t = memWrite addr v st →
      t = { st with
        memory := t.memory, specialEvent := t.specialEvent, hostAnswers := t.hostAnswers, trapLog := t.trapLog })

/-- The canonical form is the model's own choice (log 4: no listed byte is 0x00, what an unlisted one reads as); R50 gives
the 65536 bytes. Memory in its canonical form is determined by what it reads as: two such memories that read alike at
every address are equal data. -/
def Obligations.CanonicalMemoriesThatReadAlikeAreEqual : Prop :=
  ∀ m m' : Memory, Memory.wf m → Memory.wf m' → (∀ n < 65536, Memory.read m n = Memory.read m' n) → m = m'

/-- R68, R93 (decision D5) and R275: where only the data address is special, a read-modify-write makes one read trap and then
one write trap there, and a store makes one write trap and no read trap. -/
def Obligations.ModifyTrapsTwiceAndStoreOnce : Prop :=
  ∀ (i : Instr) (e : Ea) (st t : State), i.operand = .mem e → exec i st = .next t →
    (resolve e st).2 = st → st.isSpecial (resolve e st).1 →
    (i.mnemonic ∈ [Mnemonic.asl, .lsr, .rol, .ror, .inc, .dec] →
      ∃ v r, t.trapLog = .write (resolve e st).1 r :: .read (resolve e st).1 v :: st.trapLog) ∧
    (i.mnemonic ∈ [Mnemonic.sta, .stx, .sty] → ∃ r, t.trapLog = .write (resolve e st).1 r :: st.trapLog)

/-! ### Frames and rules of the whole machine -/

/-- The frame of memory for every instruction, where no trap happens: an instruction that stores nothing leaves every byte as
it was, and one that stores leaves every byte outside the addresses it stores to (`storedAddrs`: the resolved operand of
STA, STX, STY, ASL, LSR, ROL, ROR, INC, DEC; the stack slots of PHA, PHP, JSR, BRK). -/
def Obligations.StoresOnlyToItsAddresses : Prop :=
  ∀ (i : Instr) (st t : State), exec i st = .next t → NoTrap st t →
    (storedAddrs i st = [] → ∀ a, t.byteAt a = st.byteAt a) ∧
    (Memory.wf st.memory → ∀ a, a ∉ storedAddrs i st → t.byteAt a = st.byteAt a)

/-- The frame of the rest of the state for every instruction. The VM record stays (R35, decision D30), the configuration
stays (R30, R31, R33, R57, decision D17; that a callback changes memory alone is the model's reading, log 8), and so do
the phase and the answer of the last call; the budget changes only by the one cycle of a taken branch (R180); the trap
log, the model's own field (log 6), only grows. -/
def Obligations.InstructionsLeaveRecordAndConfiguration : Prop :=
  ∀ (i : Instr) (st t : State), exec i st = .next t →
    t = { st with
      work := t.work, budget := t.budget, memory := t.memory, specialEvent := t.specialEvent
      hostAnswers := t.hostAnswers, trapLog := t.trapLog } ∧
    t.budget = (if branchTaken i.mnemonic st.work.p then st.budget - 1 else st.budget) ∧
    ∃ evs, t.trapLog = evs ++ st.trapLog

/-- R22, R23, R24: which instructions write `a` (of the shifts and rotates the accumulator forms alone), `x`, `y` and `s`;
and only control transfers write `pc` once the instruction has been fetched. -/
def Obligations.RegistersAreWrittenOnlyByTheirWriters : Prop :=
  ∀ (i : Instr) (st t : State), exec i st = .next t →
    (t.work.a ≠ st.work.a →
      i.mnemonic ∈ [Mnemonic.ora, .and, .eor, .adc, .sbc, .lda, .pla, .txa, .tya] ∨
      (i.mnemonic ∈ [Mnemonic.asl, .lsr, .rol, .ror] ∧ i.operand = .acc)) ∧
    (t.work.x ≠ st.work.x → i.mnemonic ∈ [Mnemonic.ldx, .tax, .tsx, .inx, .dex]) ∧
    (t.work.y ≠ st.work.y → i.mnemonic ∈ [Mnemonic.ldy, .tay, .iny, .dey]) ∧
    (t.work.s ≠ st.work.s → i.mnemonic ∈ [Mnemonic.txs, .pla, .plp, .rts, .rti, .pha, .php, .jsr, .brk]) ∧
    (t.work.pc ≠ st.work.pc →
      i.mnemonic ∈ [Mnemonic.jsr, .rts, .brk, .rti, .jmp, .bpl, .bmi, .bvc, .bvs, .bcc, .bcs, .bne, .beq])

/-- R28: which instructions write each flag. -/
def Obligations.FlagsAreWrittenOnlyByTheirWriters : Prop :=
  ∀ (i : Instr) (st t : State), exec i st = .next t →
    let setznGroup : List Mnemonic := [.ora, .and, .eor, .asl, .lsr, .rol, .ror, .inc, .dec, .lda, .ldx, .ldy, .pla,
      .tax, .txa, .tay, .tya, .inx, .iny, .dex, .dey, .cmp, .cpx, .cpy]
    let p := st.work.p
    let q := t.work.p
    (flagN q ≠ flagN p → i.mnemonic ∈ setznGroup ++ [Mnemonic.bit, .adc, .sbc, .plp, .rti]) ∧
    (flagV q ≠ flagV p → i.mnemonic ∈ [Mnemonic.adc, .sbc, .bit, .clv, .plp, .rti]) ∧
    (flagU q ≠ flagU p → i.mnemonic ∈ [Mnemonic.plp, .rti]) ∧
    (flagB q ≠ flagB p → i.mnemonic ∈ [Mnemonic.brk, .plp, .rti]) ∧
    (flagD q ≠ flagD p → i.mnemonic ∈ [Mnemonic.sed, .cld, .plp, .rti]) ∧
    (flagI q ≠ flagI p → i.mnemonic ∈ [Mnemonic.sei, .cli, .brk, .plp, .rti]) ∧
    (flagZ q ≠ flagZ p → i.mnemonic ∈ setznGroup ++ [Mnemonic.bit, .adc, .sbc, .plp, .rti]) ∧
    (flagC q ≠ flagC p →
      i.mnemonic ∈ [Mnemonic.asl, .lsr, .rol, .ror, .cmp, .cpx, .cpy, .adc, .sbc, .clc, .sec, .plp, .rti])

/-- R28, R145, R255: no instruction but PHP and BRK looks at the flags U, B and I, and none but these, ADC and SBC at D. (The
stop test of R236 is no instruction: it reads all of `p`, R276.) Of two states that differ in
these flags alone, every instruction but PHP and BRK, which push them, makes two states that differ in these flags
alone. -/
def Obligations.OnlyPhpAndBrkLookAtTheHiddenFlags : Prop :=
  ∀ (i : Instr) (st : State) (q : Byte), i.mnemonic ≠ .php → i.mnemonic ≠ .brk →
    flagN q = flagN st.work.p → flagV q = flagV st.work.p → flagZ q = flagZ st.work.p → flagC q = flagC st.work.p →
    (i.mnemonic = .adc ∨ i.mnemonic = .sbc → flagD q = flagD st.work.p) →
    ∃ t t', exec i st = .next t ∧ exec i { st with work := { st.work with p := q } } = .next t' ∧
      t' = { t with work := { t.work with p := t'.work.p } } ∧
      flagN t'.work.p = flagN t.work.p ∧ flagV t'.work.p = flagV t.work.p ∧
      flagZ t'.work.p = flagZ t.work.p ∧ flagC t'.work.p = flagC t.work.p

/-- R54, R258, R277: ROM is protected from every step. A byte at or above `rom_boundary` and outside the special range reads
the same after any step in which no trap happened. -/
def Obligations.StepsNeverChangeRom : Prop :=
  ∀ (st t : State) (a : Word), Memory.wf st.memory → step st = .next t → NoTrap st t → st.classify a = .rom →
    t.byteAt a = st.byteAt a

/-- R30, R31, R33, R57 (decision D17): `rom_boundary`, `special_range` and the callbacks are read-only to the core; no step
changes them, traps or not. -/
def Obligations.StepsNeverChangeTheConfiguration : Prop :=
  ∀ st t : State, step st = .next t →
    t.romBoundary = st.romBoundary ∧ t.specialStart = st.specialStart ∧ t.specialEnd = st.specialEnd ∧
    t.readCallback = st.readCallback ∧ t.writeCallback = st.writeCallback

/-- The invariant holds right after `create`. (The values there are the model's choice, log 1 to log 4.) -/
def Obligations.ResetMeetsTheInvariant : Prop :=
  State.reset.Inv

/-- Every step from a state that meets the invariant leads to one that meets it: memory stays in its canonical form
(log 4), a running call stays configured (log 9, after R271) and keeps `ticks` in the record's tick budget (log 10, after
R34 and R35), its working budget is at most `ticks` and is either still `ticks` or at least -6, and what a call answers is
bounded as R239 says. -/
def Obligations.StepsKeepTheInvariant : Prop :=
  ∀ st t : State, st.Inv → step st = .next t → t.Inv

/-- R8, R9 (that the ports are closed while a call is issued or running is the model's reading of R8 and R240, log 15):
between calls the configuration port is open and a host write takes its effect, and the execute port issues the call;
during a call both are closed; and what the host does there keeps the invariant. -/
def Obligations.HostPortsKeepTheInvariant : Prop :=
  ∀ (st t : State) (w : HostWrite) (ticks : Int),
    (st.phase = .idle → configure w st = some (w.apply st) ∧
      issueExecute ticks st = some { st with phase := .entering ticks }) ∧
    (st.phase ≠ .idle → configure w st = none ∧ issueExecute ticks st = none) ∧
    (st.Inv → configure w st = some t ∨ issueExecute ticks st = some t → t.Inv)

/-- R8: between calls the host writes each field of the VM record that the configuration port offers, and nothing else
changes with it. A memory byte is written by direct access, past the decoder, ROM protection and traps: whatever the class
of the address is, that byte becomes the value, every other byte reads as before, and no trap happens. -/
def Obligations.HostWritesTakeEffect : Prop :=
  ∀ st : State, st.phase = .idle → Memory.wf st.memory →
    (∀ v, configure (.pc v) st = some { st with record := { st.record with pc := v } }) ∧
    (∀ v, configure (.a v) st = some { st with record := { st.record with a := v } }) ∧
    (∀ v, configure (.x v) st = some { st with record := { st.record with x := v } }) ∧
    (∀ v, configure (.y v) st = some { st with record := { st.record with y := v } }) ∧
    (∀ v, configure (.s v) st = some { st with record := { st.record with s := v } }) ∧
    (∀ v, configure (.p v) st = some { st with record := { st.record with p := v } }) ∧
    (∀ v, configure (.romBoundary v) st = some { st with romBoundary := v }) ∧
    (∀ start stop, configure (.specialRange start stop) st = some { st with specialStart := start, specialEnd := stop }) ∧
    (∀ h, configure (.readCallback h) st = some { st with readCallback := h }) ∧
    (∀ h, configure (.writeCallback h) st = some { st with writeCallback := h }) ∧
    (∀ addr v, ∃ t, configure (.memory addr v) st = some t ∧ t = { st with memory := t.memory } ∧
      ∀ k, t.byteAt k = if k = addr then v else st.byteAt k)
end

