-- ==== Sys2Proof/Laws/Memory.lean ====
section
/-! SUPPORT. The laws of memory as data: a read after a write gives the byte written, a write leaves every other address
alone, and every operation keeps the canonical form `Memory.wf`. -/

namespace Sys2Proof.Machine

@[simp] theorem Memory.read_nil (n : Nat) : Memory.read [] n = Memory.unlisted := rfl

/-- An address below every listed one is unlisted. -/
theorem Memory.read_of_lt {m : Memory} {n : Nat} (h : ∀ c ∈ m, n < c.1) : Memory.read m n = Memory.unlisted := by
  induction m with
  | nil => rfl
  | cons c m ih =>
    have hc : n < c.1 := h c (by simp)
    have hne : c.1 ≠ n := by omega
    simp only [Memory.read, hne, if_false]
    exact ih fun d hd => h d (by simp [hd])

/-- A read after a write, at the address written and at any other. -/
theorem Memory.read_write {m : Memory} (hm : m.Pairwise (fun c d => c.1 < d.1)) (n k : Nat) (v : Byte) :
    Memory.read (Memory.write m n v) k = if k = n then v else Memory.read m k := by
  induction m with
  | nil =>
    simp only [Memory.write]
    by_cases hv : v = Memory.unlisted
    · simp [hv]
    · simp only [hv, if_false, Memory.read]
      by_cases hk : k = n
      · simp [hk]
      · simp [hk, Ne.symm hk]
  | cons c m ih =>
    obtain ⟨hc, hrest⟩ := List.pairwise_cons.mp hm
    simp only [Memory.write]
    by_cases h1 : c.1 < n
    · simp only [h1, if_true, Memory.read, ih hrest]
      by_cases hk : k = n
      · simp [hk, show c.1 ≠ n by omega]
      · simp [hk]
    · simp only [h1, if_false]
      by_cases h2 : c.1 = n
      · simp only [h2, if_true]
        by_cases hv : v = Memory.unlisted
        · simp only [hv, if_true, Memory.read, h2]
          by_cases hk : k = n
          · subst hk
            simp [Memory.read_of_lt (n := k) (m := m) (fun d hd => h2 ▸ hc d hd)]
          · simp [hk, Ne.symm hk]
        · simp only [hv, if_false, Memory.read, h2]
          by_cases hk : k = n
          · simp [hk]
          · simp [hk, Ne.symm hk]
      · simp only [h2, if_false]
        by_cases hv : v = Memory.unlisted
        · simp only [hv, if_true]
          by_cases hk : k = n
          · subst hk
            have : Memory.read (c :: m) k = Memory.unlisted := by
              refine Memory.read_of_lt fun d hd => ?_
              rcases List.mem_cons.mp hd with rfl | hd
              · omega
              · have := hc d hd
                omega
            simp [this]
          · simp [hk]
        · simp only [hv, if_false, Memory.read]
          by_cases hk : k = n
          · simp [hk]
          · simp [hk, Ne.symm hk]

/-- What a write lists: the byte written, or a cell that was listed before. -/
theorem Memory.mem_write {m : Memory} {n : Nat} {v : Byte} {c : Host.Cell} (h : c ∈ Memory.write m n v) :
    (c = (n, v) ∧ v ≠ Memory.unlisted) ∨ c ∈ m := by
  induction m with
  | nil =>
    by_cases hv : v = Memory.unlisted
    · simp [Memory.write, hv] at h
    · left
      simpa [Memory.write, hv] using h
  | cons d m ih =>
    simp only [Memory.write] at h
    split at h
    · rcases List.mem_cons.mp h with rfl | h
      · exact .inr (by simp)
      · rcases ih h with hh | hh
        · exact .inl hh
        · exact .inr (by simp [hh])
    · split at h
      · split at h
        · exact .inr (by simp [h])
        · rename_i hv
          rcases List.mem_cons.mp h with rfl | h
          · exact .inl ⟨rfl, hv⟩
          · exact .inr (by simp [h])
      · split at h
        · exact .inr h
        · rename_i hv
          rcases List.mem_cons.mp h with rfl | h
          · exact .inl ⟨rfl, hv⟩
          · exact .inr h

/-- A write keeps the addresses strictly rising. -/
theorem Memory.write_sorted {m : Memory} (hm : m.Pairwise (fun c d => c.1 < d.1)) (n : Nat) (v : Byte) :
    (Memory.write m n v).Pairwise (fun c d => c.1 < d.1) := by
  induction m with
  | nil =>
    simp only [Memory.write]
    split <;> simp
  | cons c m ih =>
    obtain ⟨hc, hrest⟩ := List.pairwise_cons.mp hm
    simp only [Memory.write]
    split
    · rename_i h1
      refine List.pairwise_cons.mpr ⟨fun d hd => ?_, ih hrest⟩
      rcases Memory.mem_write hd with ⟨rfl, -⟩ | hd
      · exact h1
      · exact hc d hd
    · rename_i h1
      split
      · rename_i h2
        split
        · exact hrest
        · exact List.pairwise_cons.mpr ⟨fun d hd => h2 ▸ hc d hd, hrest⟩
      · split
        · exact hm
        · refine List.pairwise_cons.mpr ⟨fun d hd => ?_, hm⟩
          rcases List.mem_cons.mp hd with rfl | hd
          · show n < d.1
            omega
          · have hcd : c.1 < d.1 := hc d hd
            show n < d.1
            omega

/-- A write below 65536 keeps the canonical form. -/
theorem Memory.write_wf {m : Memory} (hm : Memory.wf m) {n : Nat} (hn : n < 65536) (v : Byte) :
    Memory.wf (Memory.write m n v) := by
  refine ⟨Memory.write_sorted hm.1 n v, fun c hc => ?_⟩
  rcases Memory.mem_write hc with ⟨rfl, hv⟩ | hc
  · exact ⟨hn, hv⟩
  · exact hm.2 c hc

/-- The host's direct writes keep the canonical form. -/
theorem Memory.pokeAll_wf {m : Memory} (hm : Memory.wf m) (pokes : List (Word × Byte)) :
    Memory.wf (Memory.pokeAll m pokes) := by
  induction pokes generalizing m with
  | nil => exact hm
  | cons q pokes ih => exact ih (Memory.write_wf hm q.1.isLt q.2)

/-- Reset's memory is in the canonical form. -/
theorem State.reset_memory_wf : Memory.wf State.reset.memory := by decide

/-- Two addresses are the same byte of memory only if they are equal. -/
theorem toNat_eq_iff (a b : Word) : a.toNat = b.toNat ↔ a = b := BitVec.toNat_inj

/-- A direct write, read back at any address. -/
theorem State.byteAt_setByte {st : State} (hm : Memory.wf st.memory) (addr k : Word) (v : Byte) :
    (st.setByte addr v).byteAt k = if k = addr then v else st.byteAt k := by
  simp only [State.byteAt, State.setByte, Memory.read_write hm.1, toNat_eq_iff]

end Sys2Proof.Machine
end

