-- ==== Sys2Proof/Laws/State.lean ====
section
/-! SUPPORT. What each shared update of the state does to each field: one lemma per field per update, true by `rfl`, so
that no later proof unfolds a record update. -/

namespace Sys2Proof.Machine

/-! ### `setPc` -/

@[simp] theorem State.setPc_memory (st : State) (v : Word) : (st.setPc v).memory = st.memory := rfl
@[simp] theorem State.setPc_romBoundary (st : State) (v : Word) : (st.setPc v).romBoundary = st.romBoundary := rfl
@[simp] theorem State.setPc_specialStart (st : State) (v : Word) : (st.setPc v).specialStart = st.specialStart := rfl
@[simp] theorem State.setPc_specialEnd (st : State) (v : Word) : (st.setPc v).specialEnd = st.specialEnd := rfl
@[simp] theorem State.setPc_specialEvent (st : State) (v : Word) : (st.setPc v).specialEvent = st.specialEvent := rfl
@[simp] theorem State.setPc_readCallback (st : State) (v : Word) : (st.setPc v).readCallback = st.readCallback := rfl
@[simp] theorem State.setPc_writeCallback (st : State) (v : Word) : (st.setPc v).writeCallback = st.writeCallback := rfl
@[simp] theorem State.setPc_tickBudget (st : State) (v : Word) : (st.setPc v).tickBudget = st.tickBudget := rfl
@[simp] theorem State.setPc_record (st : State) (v : Word) : (st.setPc v).record = st.record := rfl
@[simp] theorem State.setPc_work (st : State) (v : Word) : (st.setPc v).work = { st.work with pc := v } := rfl
@[simp] theorem State.setPc_budget (st : State) (v : Word) : (st.setPc v).budget = st.budget := rfl
@[simp] theorem State.setPc_phase (st : State) (v : Word) : (st.setPc v).phase = st.phase := rfl
@[simp] theorem State.setPc_result (st : State) (v : Word) : (st.setPc v).result = st.result := rfl
@[simp] theorem State.setPc_hostAnswers (st : State) (v : Word) : (st.setPc v).hostAnswers = st.hostAnswers := rfl
@[simp] theorem State.setPc_trapLog (st : State) (v : Word) : (st.setPc v).trapLog = st.trapLog := rfl

/-! ### `setA` -/

@[simp] theorem State.setA_memory (st : State) (v : Byte) : (st.setA v).memory = st.memory := rfl
@[simp] theorem State.setA_romBoundary (st : State) (v : Byte) : (st.setA v).romBoundary = st.romBoundary := rfl
@[simp] theorem State.setA_specialStart (st : State) (v : Byte) : (st.setA v).specialStart = st.specialStart := rfl
@[simp] theorem State.setA_specialEnd (st : State) (v : Byte) : (st.setA v).specialEnd = st.specialEnd := rfl
@[simp] theorem State.setA_specialEvent (st : State) (v : Byte) : (st.setA v).specialEvent = st.specialEvent := rfl
@[simp] theorem State.setA_readCallback (st : State) (v : Byte) : (st.setA v).readCallback = st.readCallback := rfl
@[simp] theorem State.setA_writeCallback (st : State) (v : Byte) : (st.setA v).writeCallback = st.writeCallback := rfl
@[simp] theorem State.setA_tickBudget (st : State) (v : Byte) : (st.setA v).tickBudget = st.tickBudget := rfl
@[simp] theorem State.setA_record (st : State) (v : Byte) : (st.setA v).record = st.record := rfl
@[simp] theorem State.setA_work (st : State) (v : Byte) : (st.setA v).work = { st.work with a := v } := rfl
@[simp] theorem State.setA_budget (st : State) (v : Byte) : (st.setA v).budget = st.budget := rfl
@[simp] theorem State.setA_phase (st : State) (v : Byte) : (st.setA v).phase = st.phase := rfl
@[simp] theorem State.setA_result (st : State) (v : Byte) : (st.setA v).result = st.result := rfl
@[simp] theorem State.setA_hostAnswers (st : State) (v : Byte) : (st.setA v).hostAnswers = st.hostAnswers := rfl
@[simp] theorem State.setA_trapLog (st : State) (v : Byte) : (st.setA v).trapLog = st.trapLog := rfl

/-! ### `setX` -/

@[simp] theorem State.setX_memory (st : State) (v : Byte) : (st.setX v).memory = st.memory := rfl
@[simp] theorem State.setX_romBoundary (st : State) (v : Byte) : (st.setX v).romBoundary = st.romBoundary := rfl
@[simp] theorem State.setX_specialStart (st : State) (v : Byte) : (st.setX v).specialStart = st.specialStart := rfl
@[simp] theorem State.setX_specialEnd (st : State) (v : Byte) : (st.setX v).specialEnd = st.specialEnd := rfl
@[simp] theorem State.setX_specialEvent (st : State) (v : Byte) : (st.setX v).specialEvent = st.specialEvent := rfl
@[simp] theorem State.setX_readCallback (st : State) (v : Byte) : (st.setX v).readCallback = st.readCallback := rfl
@[simp] theorem State.setX_writeCallback (st : State) (v : Byte) : (st.setX v).writeCallback = st.writeCallback := rfl
@[simp] theorem State.setX_tickBudget (st : State) (v : Byte) : (st.setX v).tickBudget = st.tickBudget := rfl
@[simp] theorem State.setX_record (st : State) (v : Byte) : (st.setX v).record = st.record := rfl
@[simp] theorem State.setX_work (st : State) (v : Byte) : (st.setX v).work = { st.work with x := v } := rfl
@[simp] theorem State.setX_budget (st : State) (v : Byte) : (st.setX v).budget = st.budget := rfl
@[simp] theorem State.setX_phase (st : State) (v : Byte) : (st.setX v).phase = st.phase := rfl
@[simp] theorem State.setX_result (st : State) (v : Byte) : (st.setX v).result = st.result := rfl
@[simp] theorem State.setX_hostAnswers (st : State) (v : Byte) : (st.setX v).hostAnswers = st.hostAnswers := rfl
@[simp] theorem State.setX_trapLog (st : State) (v : Byte) : (st.setX v).trapLog = st.trapLog := rfl

/-! ### `setY` -/

@[simp] theorem State.setY_memory (st : State) (v : Byte) : (st.setY v).memory = st.memory := rfl
@[simp] theorem State.setY_romBoundary (st : State) (v : Byte) : (st.setY v).romBoundary = st.romBoundary := rfl
@[simp] theorem State.setY_specialStart (st : State) (v : Byte) : (st.setY v).specialStart = st.specialStart := rfl
@[simp] theorem State.setY_specialEnd (st : State) (v : Byte) : (st.setY v).specialEnd = st.specialEnd := rfl
@[simp] theorem State.setY_specialEvent (st : State) (v : Byte) : (st.setY v).specialEvent = st.specialEvent := rfl
@[simp] theorem State.setY_readCallback (st : State) (v : Byte) : (st.setY v).readCallback = st.readCallback := rfl
@[simp] theorem State.setY_writeCallback (st : State) (v : Byte) : (st.setY v).writeCallback = st.writeCallback := rfl
@[simp] theorem State.setY_tickBudget (st : State) (v : Byte) : (st.setY v).tickBudget = st.tickBudget := rfl
@[simp] theorem State.setY_record (st : State) (v : Byte) : (st.setY v).record = st.record := rfl
@[simp] theorem State.setY_work (st : State) (v : Byte) : (st.setY v).work = { st.work with y := v } := rfl
@[simp] theorem State.setY_budget (st : State) (v : Byte) : (st.setY v).budget = st.budget := rfl
@[simp] theorem State.setY_phase (st : State) (v : Byte) : (st.setY v).phase = st.phase := rfl
@[simp] theorem State.setY_result (st : State) (v : Byte) : (st.setY v).result = st.result := rfl
@[simp] theorem State.setY_hostAnswers (st : State) (v : Byte) : (st.setY v).hostAnswers = st.hostAnswers := rfl
@[simp] theorem State.setY_trapLog (st : State) (v : Byte) : (st.setY v).trapLog = st.trapLog := rfl

/-! ### `setS` -/

@[simp] theorem State.setS_memory (st : State) (v : Byte) : (st.setS v).memory = st.memory := rfl
@[simp] theorem State.setS_romBoundary (st : State) (v : Byte) : (st.setS v).romBoundary = st.romBoundary := rfl
@[simp] theorem State.setS_specialStart (st : State) (v : Byte) : (st.setS v).specialStart = st.specialStart := rfl
@[simp] theorem State.setS_specialEnd (st : State) (v : Byte) : (st.setS v).specialEnd = st.specialEnd := rfl
@[simp] theorem State.setS_specialEvent (st : State) (v : Byte) : (st.setS v).specialEvent = st.specialEvent := rfl
@[simp] theorem State.setS_readCallback (st : State) (v : Byte) : (st.setS v).readCallback = st.readCallback := rfl
@[simp] theorem State.setS_writeCallback (st : State) (v : Byte) : (st.setS v).writeCallback = st.writeCallback := rfl
@[simp] theorem State.setS_tickBudget (st : State) (v : Byte) : (st.setS v).tickBudget = st.tickBudget := rfl
@[simp] theorem State.setS_record (st : State) (v : Byte) : (st.setS v).record = st.record := rfl
@[simp] theorem State.setS_work (st : State) (v : Byte) : (st.setS v).work = { st.work with s := v } := rfl
@[simp] theorem State.setS_budget (st : State) (v : Byte) : (st.setS v).budget = st.budget := rfl
@[simp] theorem State.setS_phase (st : State) (v : Byte) : (st.setS v).phase = st.phase := rfl
@[simp] theorem State.setS_result (st : State) (v : Byte) : (st.setS v).result = st.result := rfl
@[simp] theorem State.setS_hostAnswers (st : State) (v : Byte) : (st.setS v).hostAnswers = st.hostAnswers := rfl
@[simp] theorem State.setS_trapLog (st : State) (v : Byte) : (st.setS v).trapLog = st.trapLog := rfl

/-! ### `setP` -/

@[simp] theorem State.setP_memory (st : State) (v : Byte) : (st.setP v).memory = st.memory := rfl
@[simp] theorem State.setP_romBoundary (st : State) (v : Byte) : (st.setP v).romBoundary = st.romBoundary := rfl
@[simp] theorem State.setP_specialStart (st : State) (v : Byte) : (st.setP v).specialStart = st.specialStart := rfl
@[simp] theorem State.setP_specialEnd (st : State) (v : Byte) : (st.setP v).specialEnd = st.specialEnd := rfl
@[simp] theorem State.setP_specialEvent (st : State) (v : Byte) : (st.setP v).specialEvent = st.specialEvent := rfl
@[simp] theorem State.setP_readCallback (st : State) (v : Byte) : (st.setP v).readCallback = st.readCallback := rfl
@[simp] theorem State.setP_writeCallback (st : State) (v : Byte) : (st.setP v).writeCallback = st.writeCallback := rfl
@[simp] theorem State.setP_tickBudget (st : State) (v : Byte) : (st.setP v).tickBudget = st.tickBudget := rfl
@[simp] theorem State.setP_record (st : State) (v : Byte) : (st.setP v).record = st.record := rfl
@[simp] theorem State.setP_work (st : State) (v : Byte) : (st.setP v).work = { st.work with p := v } := rfl
@[simp] theorem State.setP_budget (st : State) (v : Byte) : (st.setP v).budget = st.budget := rfl
@[simp] theorem State.setP_phase (st : State) (v : Byte) : (st.setP v).phase = st.phase := rfl
@[simp] theorem State.setP_result (st : State) (v : Byte) : (st.setP v).result = st.result := rfl
@[simp] theorem State.setP_hostAnswers (st : State) (v : Byte) : (st.setP v).hostAnswers = st.hostAnswers := rfl
@[simp] theorem State.setP_trapLog (st : State) (v : Byte) : (st.setP v).trapLog = st.trapLog := rfl

/-! ### `charge` -/

@[simp] theorem State.charge_memory (st : State) (n : Nat) : (st.charge n).memory = st.memory := rfl
@[simp] theorem State.charge_romBoundary (st : State) (n : Nat) : (st.charge n).romBoundary = st.romBoundary := rfl
@[simp] theorem State.charge_specialStart (st : State) (n : Nat) : (st.charge n).specialStart = st.specialStart := rfl
@[simp] theorem State.charge_specialEnd (st : State) (n : Nat) : (st.charge n).specialEnd = st.specialEnd := rfl
@[simp] theorem State.charge_specialEvent (st : State) (n : Nat) : (st.charge n).specialEvent = st.specialEvent := rfl
@[simp] theorem State.charge_readCallback (st : State) (n : Nat) : (st.charge n).readCallback = st.readCallback := rfl
@[simp] theorem State.charge_writeCallback (st : State) (n : Nat) : (st.charge n).writeCallback = st.writeCallback := rfl
@[simp] theorem State.charge_tickBudget (st : State) (n : Nat) : (st.charge n).tickBudget = st.tickBudget := rfl
@[simp] theorem State.charge_record (st : State) (n : Nat) : (st.charge n).record = st.record := rfl
@[simp] theorem State.charge_work (st : State) (n : Nat) : (st.charge n).work = st.work := rfl
@[simp] theorem State.charge_budget (st : State) (n : Nat) : (st.charge n).budget = st.budget - n := rfl
@[simp] theorem State.charge_phase (st : State) (n : Nat) : (st.charge n).phase = st.phase := rfl
@[simp] theorem State.charge_result (st : State) (n : Nat) : (st.charge n).result = st.result := rfl
@[simp] theorem State.charge_hostAnswers (st : State) (n : Nat) : (st.charge n).hostAnswers = st.hostAnswers := rfl
@[simp] theorem State.charge_trapLog (st : State) (n : Nat) : (st.charge n).trapLog = st.trapLog := rfl

/-! ### `setByte` -/

@[simp] theorem State.setByte_memory (st : State) (addr : Word) (v : Byte) : (st.setByte addr v).memory = Memory.write st.memory addr.toNat v := rfl
@[simp] theorem State.setByte_romBoundary (st : State) (addr : Word) (v : Byte) : (st.setByte addr v).romBoundary = st.romBoundary := rfl
@[simp] theorem State.setByte_specialStart (st : State) (addr : Word) (v : Byte) : (st.setByte addr v).specialStart = st.specialStart := rfl
@[simp] theorem State.setByte_specialEnd (st : State) (addr : Word) (v : Byte) : (st.setByte addr v).specialEnd = st.specialEnd := rfl
@[simp] theorem State.setByte_specialEvent (st : State) (addr : Word) (v : Byte) : (st.setByte addr v).specialEvent = st.specialEvent := rfl
@[simp] theorem State.setByte_readCallback (st : State) (addr : Word) (v : Byte) : (st.setByte addr v).readCallback = st.readCallback := rfl
@[simp] theorem State.setByte_writeCallback (st : State) (addr : Word) (v : Byte) : (st.setByte addr v).writeCallback = st.writeCallback := rfl
@[simp] theorem State.setByte_tickBudget (st : State) (addr : Word) (v : Byte) : (st.setByte addr v).tickBudget = st.tickBudget := rfl
@[simp] theorem State.setByte_record (st : State) (addr : Word) (v : Byte) : (st.setByte addr v).record = st.record := rfl
@[simp] theorem State.setByte_work (st : State) (addr : Word) (v : Byte) : (st.setByte addr v).work = st.work := rfl
@[simp] theorem State.setByte_budget (st : State) (addr : Word) (v : Byte) : (st.setByte addr v).budget = st.budget := rfl
@[simp] theorem State.setByte_phase (st : State) (addr : Word) (v : Byte) : (st.setByte addr v).phase = st.phase := rfl
@[simp] theorem State.setByte_result (st : State) (addr : Word) (v : Byte) : (st.setByte addr v).result = st.result := rfl
@[simp] theorem State.setByte_hostAnswers (st : State) (addr : Word) (v : Byte) : (st.setByte addr v).hostAnswers = st.hostAnswers := rfl
@[simp] theorem State.setByte_trapLog (st : State) (addr : Word) (v : Byte) : (st.setByte addr v).trapLog = st.trapLog := rfl

/-! ### `endTrap` -/

@[simp] theorem State.endTrap_memory (st : State) (ev : TrapEvent) : (st.endTrap ev).memory = st.memory := rfl
@[simp] theorem State.endTrap_romBoundary (st : State) (ev : TrapEvent) : (st.endTrap ev).romBoundary = st.romBoundary := rfl
@[simp] theorem State.endTrap_specialStart (st : State) (ev : TrapEvent) : (st.endTrap ev).specialStart = st.specialStart := rfl
@[simp] theorem State.endTrap_specialEnd (st : State) (ev : TrapEvent) : (st.endTrap ev).specialEnd = st.specialEnd := rfl
@[simp] theorem State.endTrap_specialEvent (st : State) (ev : TrapEvent) : (st.endTrap ev).specialEvent = Config.specialEventAfterTrap (ev :: st.trapLog) := rfl
@[simp] theorem State.endTrap_readCallback (st : State) (ev : TrapEvent) : (st.endTrap ev).readCallback = st.readCallback := rfl
@[simp] theorem State.endTrap_writeCallback (st : State) (ev : TrapEvent) : (st.endTrap ev).writeCallback = st.writeCallback := rfl
@[simp] theorem State.endTrap_tickBudget (st : State) (ev : TrapEvent) : (st.endTrap ev).tickBudget = st.tickBudget := rfl
@[simp] theorem State.endTrap_record (st : State) (ev : TrapEvent) : (st.endTrap ev).record = st.record := rfl
@[simp] theorem State.endTrap_work (st : State) (ev : TrapEvent) : (st.endTrap ev).work = st.work := rfl
@[simp] theorem State.endTrap_budget (st : State) (ev : TrapEvent) : (st.endTrap ev).budget = st.budget := rfl
@[simp] theorem State.endTrap_phase (st : State) (ev : TrapEvent) : (st.endTrap ev).phase = st.phase := rfl
@[simp] theorem State.endTrap_result (st : State) (ev : TrapEvent) : (st.endTrap ev).result = st.result := rfl
@[simp] theorem State.endTrap_hostAnswers (st : State) (ev : TrapEvent) : (st.endTrap ev).hostAnswers = st.hostAnswers.tail := rfl
@[simp] theorem State.endTrap_trapLog (st : State) (ev : TrapEvent) : (st.endTrap ev).trapLog = ev :: st.trapLog := rfl

/-! ### `enterCall` -/

@[simp] theorem State.enterCall_memory (st : State) (ticks : Int) : (enterCall ticks st).memory = st.memory := rfl
@[simp] theorem State.enterCall_romBoundary (st : State) (ticks : Int) : (enterCall ticks st).romBoundary = st.romBoundary := rfl
@[simp] theorem State.enterCall_specialStart (st : State) (ticks : Int) : (enterCall ticks st).specialStart = st.specialStart := rfl
@[simp] theorem State.enterCall_specialEnd (st : State) (ticks : Int) : (enterCall ticks st).specialEnd = st.specialEnd := rfl
@[simp] theorem State.enterCall_specialEvent (st : State) (ticks : Int) : (enterCall ticks st).specialEvent = st.specialEvent := rfl
@[simp] theorem State.enterCall_readCallback (st : State) (ticks : Int) : (enterCall ticks st).readCallback = st.readCallback := rfl
@[simp] theorem State.enterCall_writeCallback (st : State) (ticks : Int) : (enterCall ticks st).writeCallback = st.writeCallback := rfl
@[simp] theorem State.enterCall_tickBudget (st : State) (ticks : Int) : (enterCall ticks st).tickBudget = ticks := rfl
@[simp] theorem State.enterCall_record (st : State) (ticks : Int) : (enterCall ticks st).record = st.record := rfl
@[simp] theorem State.enterCall_work (st : State) (ticks : Int) : (enterCall ticks st).work = st.record := rfl
@[simp] theorem State.enterCall_budget (st : State) (ticks : Int) : (enterCall ticks st).budget = ticks := rfl
@[simp] theorem State.enterCall_phase (st : State) (ticks : Int) : (enterCall ticks st).phase = .running ticks := rfl
@[simp] theorem State.enterCall_result (st : State) (ticks : Int) : (enterCall ticks st).result = none := rfl
@[simp] theorem State.enterCall_hostAnswers (st : State) (ticks : Int) : (enterCall ticks st).hostAnswers = st.hostAnswers := rfl
@[simp] theorem State.enterCall_trapLog (st : State) (ticks : Int) : (enterCall ticks st).trapLog = st.trapLog := rfl

/-! ### `exitCall` -/

@[simp] theorem State.exitCall_memory (st : State) (ticks : Int) (status : ExitStatus) : (exitCall ticks status st).memory = st.memory := rfl
@[simp] theorem State.exitCall_romBoundary (st : State) (ticks : Int) (status : ExitStatus) : (exitCall ticks status st).romBoundary = st.romBoundary := rfl
@[simp] theorem State.exitCall_specialStart (st : State) (ticks : Int) (status : ExitStatus) : (exitCall ticks status st).specialStart = st.specialStart := rfl
@[simp] theorem State.exitCall_specialEnd (st : State) (ticks : Int) (status : ExitStatus) : (exitCall ticks status st).specialEnd = st.specialEnd := rfl
@[simp] theorem State.exitCall_specialEvent (st : State) (ticks : Int) (status : ExitStatus) : (exitCall ticks status st).specialEvent = st.specialEvent := rfl
@[simp] theorem State.exitCall_readCallback (st : State) (ticks : Int) (status : ExitStatus) : (exitCall ticks status st).readCallback = st.readCallback := rfl
@[simp] theorem State.exitCall_writeCallback (st : State) (ticks : Int) (status : ExitStatus) : (exitCall ticks status st).writeCallback = st.writeCallback := rfl
@[simp] theorem State.exitCall_tickBudget (st : State) (ticks : Int) (status : ExitStatus) : (exitCall ticks status st).tickBudget = st.budget := rfl
@[simp] theorem State.exitCall_record (st : State) (ticks : Int) (status : ExitStatus) : (exitCall ticks status st).record = st.work := rfl
@[simp] theorem State.exitCall_work (st : State) (ticks : Int) (status : ExitStatus) : (exitCall ticks status st).work = st.work := rfl
@[simp] theorem State.exitCall_budget (st : State) (ticks : Int) (status : ExitStatus) : (exitCall ticks status st).budget = st.budget := rfl
@[simp] theorem State.exitCall_phase (st : State) (ticks : Int) (status : ExitStatus) : (exitCall ticks status st).phase = .idle := rfl
@[simp] theorem State.exitCall_result (st : State) (ticks : Int) (status : ExitStatus) : (exitCall ticks status st).result = some { ticksConsumed := ticks - st.budget, status := status } := rfl
@[simp] theorem State.exitCall_hostAnswers (st : State) (ticks : Int) (status : ExitStatus) : (exitCall ticks status st).hostAnswers = st.hostAnswers := rfl
@[simp] theorem State.exitCall_trapLog (st : State) (ticks : Int) (status : ExitStatus) : (exitCall ticks status st).trapLog = st.trapLog := rfl

/-! ### `assignA` -/

@[simp] theorem State.assignA_memory (st : State) (v : Byte) : (assignA v st).memory = st.memory := rfl
@[simp] theorem State.assignA_romBoundary (st : State) (v : Byte) : (assignA v st).romBoundary = st.romBoundary := rfl
@[simp] theorem State.assignA_specialStart (st : State) (v : Byte) : (assignA v st).specialStart = st.specialStart := rfl
@[simp] theorem State.assignA_specialEnd (st : State) (v : Byte) : (assignA v st).specialEnd = st.specialEnd := rfl
@[simp] theorem State.assignA_specialEvent (st : State) (v : Byte) : (assignA v st).specialEvent = st.specialEvent := rfl
@[simp] theorem State.assignA_readCallback (st : State) (v : Byte) : (assignA v st).readCallback = st.readCallback := rfl
@[simp] theorem State.assignA_writeCallback (st : State) (v : Byte) : (assignA v st).writeCallback = st.writeCallback := rfl
@[simp] theorem State.assignA_tickBudget (st : State) (v : Byte) : (assignA v st).tickBudget = st.tickBudget := rfl
@[simp] theorem State.assignA_record (st : State) (v : Byte) : (assignA v st).record = st.record := rfl
@[simp] theorem State.assignA_work (st : State) (v : Byte) : (assignA v st).work = { st.work with a := v, p := setzn v st.work.p } := rfl
@[simp] theorem State.assignA_budget (st : State) (v : Byte) : (assignA v st).budget = st.budget := rfl
@[simp] theorem State.assignA_phase (st : State) (v : Byte) : (assignA v st).phase = st.phase := rfl
@[simp] theorem State.assignA_result (st : State) (v : Byte) : (assignA v st).result = st.result := rfl
@[simp] theorem State.assignA_hostAnswers (st : State) (v : Byte) : (assignA v st).hostAnswers = st.hostAnswers := rfl
@[simp] theorem State.assignA_trapLog (st : State) (v : Byte) : (assignA v st).trapLog = st.trapLog := rfl

/-! ### `assignX` -/

@[simp] theorem State.assignX_memory (st : State) (v : Byte) : (assignX v st).memory = st.memory := rfl
@[simp] theorem State.assignX_romBoundary (st : State) (v : Byte) : (assignX v st).romBoundary = st.romBoundary := rfl
@[simp] theorem State.assignX_specialStart (st : State) (v : Byte) : (assignX v st).specialStart = st.specialStart := rfl
@[simp] theorem State.assignX_specialEnd (st : State) (v : Byte) : (assignX v st).specialEnd = st.specialEnd := rfl
@[simp] theorem State.assignX_specialEvent (st : State) (v : Byte) : (assignX v st).specialEvent = st.specialEvent := rfl
@[simp] theorem State.assignX_readCallback (st : State) (v : Byte) : (assignX v st).readCallback = st.readCallback := rfl
@[simp] theorem State.assignX_writeCallback (st : State) (v : Byte) : (assignX v st).writeCallback = st.writeCallback := rfl
@[simp] theorem State.assignX_tickBudget (st : State) (v : Byte) : (assignX v st).tickBudget = st.tickBudget := rfl
@[simp] theorem State.assignX_record (st : State) (v : Byte) : (assignX v st).record = st.record := rfl
@[simp] theorem State.assignX_work (st : State) (v : Byte) : (assignX v st).work = { st.work with x := v, p := setzn v st.work.p } := rfl
@[simp] theorem State.assignX_budget (st : State) (v : Byte) : (assignX v st).budget = st.budget := rfl
@[simp] theorem State.assignX_phase (st : State) (v : Byte) : (assignX v st).phase = st.phase := rfl
@[simp] theorem State.assignX_result (st : State) (v : Byte) : (assignX v st).result = st.result := rfl
@[simp] theorem State.assignX_hostAnswers (st : State) (v : Byte) : (assignX v st).hostAnswers = st.hostAnswers := rfl
@[simp] theorem State.assignX_trapLog (st : State) (v : Byte) : (assignX v st).trapLog = st.trapLog := rfl

/-! ### `assignY` -/

@[simp] theorem State.assignY_memory (st : State) (v : Byte) : (assignY v st).memory = st.memory := rfl
@[simp] theorem State.assignY_romBoundary (st : State) (v : Byte) : (assignY v st).romBoundary = st.romBoundary := rfl
@[simp] theorem State.assignY_specialStart (st : State) (v : Byte) : (assignY v st).specialStart = st.specialStart := rfl
@[simp] theorem State.assignY_specialEnd (st : State) (v : Byte) : (assignY v st).specialEnd = st.specialEnd := rfl
@[simp] theorem State.assignY_specialEvent (st : State) (v : Byte) : (assignY v st).specialEvent = st.specialEvent := rfl
@[simp] theorem State.assignY_readCallback (st : State) (v : Byte) : (assignY v st).readCallback = st.readCallback := rfl
@[simp] theorem State.assignY_writeCallback (st : State) (v : Byte) : (assignY v st).writeCallback = st.writeCallback := rfl
@[simp] theorem State.assignY_tickBudget (st : State) (v : Byte) : (assignY v st).tickBudget = st.tickBudget := rfl
@[simp] theorem State.assignY_record (st : State) (v : Byte) : (assignY v st).record = st.record := rfl
@[simp] theorem State.assignY_work (st : State) (v : Byte) : (assignY v st).work = { st.work with y := v, p := setzn v st.work.p } := rfl
@[simp] theorem State.assignY_budget (st : State) (v : Byte) : (assignY v st).budget = st.budget := rfl
@[simp] theorem State.assignY_phase (st : State) (v : Byte) : (assignY v st).phase = st.phase := rfl
@[simp] theorem State.assignY_result (st : State) (v : Byte) : (assignY v st).result = st.result := rfl
@[simp] theorem State.assignY_hostAnswers (st : State) (v : Byte) : (assignY v st).hostAnswers = st.hostAnswers := rfl
@[simp] theorem State.assignY_trapLog (st : State) (v : Byte) : (assignY v st).trapLog = st.trapLog := rfl

/-! ### All the working registers at once -/

/-- `st` with other working registers: the form in which the register writes of one instruction add up. -/
def State.withWork (st : State) (w : Regs) : State := { st with work := w }

/-! ### `withWork` -/

@[simp] theorem State.withWork_memory (st : State) (w : Regs) : (st.withWork w).memory = st.memory := rfl
@[simp] theorem State.withWork_romBoundary (st : State) (w : Regs) : (st.withWork w).romBoundary = st.romBoundary := rfl
@[simp] theorem State.withWork_specialStart (st : State) (w : Regs) : (st.withWork w).specialStart = st.specialStart := rfl
@[simp] theorem State.withWork_specialEnd (st : State) (w : Regs) : (st.withWork w).specialEnd = st.specialEnd := rfl
@[simp] theorem State.withWork_specialEvent (st : State) (w : Regs) : (st.withWork w).specialEvent = st.specialEvent := rfl
@[simp] theorem State.withWork_readCallback (st : State) (w : Regs) : (st.withWork w).readCallback = st.readCallback := rfl
@[simp] theorem State.withWork_writeCallback (st : State) (w : Regs) : (st.withWork w).writeCallback = st.writeCallback := rfl
@[simp] theorem State.withWork_tickBudget (st : State) (w : Regs) : (st.withWork w).tickBudget = st.tickBudget := rfl
@[simp] theorem State.withWork_record (st : State) (w : Regs) : (st.withWork w).record = st.record := rfl
@[simp] theorem State.withWork_work (st : State) (w : Regs) : (st.withWork w).work = w := rfl
@[simp] theorem State.withWork_budget (st : State) (w : Regs) : (st.withWork w).budget = st.budget := rfl
@[simp] theorem State.withWork_phase (st : State) (w : Regs) : (st.withWork w).phase = st.phase := rfl
@[simp] theorem State.withWork_result (st : State) (w : Regs) : (st.withWork w).result = st.result := rfl
@[simp] theorem State.withWork_hostAnswers (st : State) (w : Regs) : (st.withWork w).hostAnswers = st.hostAnswers := rfl
@[simp] theorem State.withWork_trapLog (st : State) (w : Regs) : (st.withWork w).trapLog = st.trapLog := rfl

@[simp] theorem State.withWork_withWork (st : State) (w w' : Regs) : (st.withWork w).withWork w' = st.withWork w' := rfl

@[simp] theorem State.withWork_self (st : State) : st.withWork st.work = st := rfl

theorem State.setPc_eq (st : State) (v : Word) : st.setPc v = st.withWork { st.work with pc := v } := rfl
theorem State.setA_eq (st : State) (v : Byte) : st.setA v = st.withWork { st.work with a := v } := rfl
theorem State.setX_eq (st : State) (v : Byte) : st.setX v = st.withWork { st.work with x := v } := rfl
theorem State.setY_eq (st : State) (v : Byte) : st.setY v = st.withWork { st.work with y := v } := rfl
theorem State.setS_eq (st : State) (v : Byte) : st.setS v = st.withWork { st.work with s := v } := rfl
theorem State.setP_eq (st : State) (v : Byte) : st.setP v = st.withWork { st.work with p := v } := rfl
theorem assignA_eq (v : Byte) (st : State) :
    assignA v st = st.withWork { st.work with a := v, p := setzn v st.work.p } := rfl
theorem assignX_eq (v : Byte) (st : State) :
    assignX v st = st.withWork { st.work with x := v, p := setzn v st.work.p } := rfl
theorem assignY_eq (v : Byte) (st : State) :
    assignY v st = st.withWork { st.work with y := v, p := setzn v st.work.p } := rfl

end Sys2Proof.Machine
end

