-- ==== Sys2Proof/Laws/Access.lean ====
section
/-! SUPPORT. What one memory access can do, said once for each shared operation: an access that does not trap leaves the
state as it is but for the byte a RAM write stores; a trap changes memory, `special_event`, the host's answers and the trap
log, and nothing else. -/

namespace Sys2Proof.Machine

/-! ### The decoder (R52 to R54) -/

theorem State.classify_special {st : State} {addr : Word} : st.classify addr = .special ↔ st.isSpecial addr := by
  unfold State.classify
  split
  · exact iff_of_true rfl ‹_›
  · refine iff_of_false ?_ ‹_›
    split <;> decide

theorem State.classify_rom {st : State} {addr : Word} :
    st.classify addr = .rom ↔ ¬ st.isSpecial addr ∧ st.romBoundary.val ≤ addr.toNat := by
  unfold State.classify
  split
  · exact iff_of_false (by decide) (fun h => h.1 ‹_›)
  · split
    · exact iff_of_true rfl ⟨‹_›, ‹_›⟩
    · exact iff_of_false (by decide) (fun h => ‹¬ st.romBoundary.val ≤ addr.toNat› h.2)

theorem State.classify_ram {st : State} {addr : Word} :
    st.classify addr = .ram ↔ ¬ st.isSpecial addr ∧ addr.toNat < st.romBoundary.val := by
  unfold State.classify
  split
  · exact iff_of_false (by decide) (fun h => h.1 ‹_›)
  · split
    · exact iff_of_false (by decide) (fun h => by omega)
    · exact iff_of_true rfl ⟨‹_›, by omega⟩

/-- The class of an address depends on the configuration alone. -/
theorem State.classify_congr {st st' : State} (hr : st'.romBoundary = st.romBoundary)
    (h1 : st'.specialStart = st.specialStart) (h2 : st'.specialEnd = st.specialEnd) (addr : Word) :
    st'.classify addr = st.classify addr := by
  simp only [State.classify, State.isSpecial, hr, h1, h2]

/-- With an empty special range no address is special. -/
theorem State.not_isSpecial_of_noSpecial {st : State} (h : st.noSpecial) (addr : Word) : ¬ st.isSpecial addr := by
  intro hs
  have h1 := hs.1
  have h2 := hs.2
  rw [h] at h1
  omega

/-! ### Reads and writes by class (R55, R56) -/

theorem memRead_special {st : State} {addr : Word} (h : st.isSpecial addr) : memRead addr st = readTrap addr st := by
  simp only [memRead, State.classify_special.mpr h]

theorem memRead_plain {st : State} {addr : Word} (h : ¬ st.isSpecial addr) :
    memRead addr st = (st.byteAt addr, st) := by
  unfold memRead
  cases hc : st.classify addr
  · exact absurd (State.classify_special.mp hc) h
  · rfl
  · rfl

theorem memWrite_special {st : State} {addr : Word} (h : st.isSpecial addr) (v : Byte) :
    memWrite addr v st = writeTrap addr v st := by
  simp only [memWrite, State.classify_special.mpr h]

theorem memWrite_ram {st : State} {addr : Word} (h : st.classify addr = .ram) (v : Byte) :
    memWrite addr v st = st.setByte addr v := by
  simp only [memWrite, h]

theorem memWrite_rom {st : State} {addr : Word} (h : st.classify addr = .rom) (v : Byte) :
    memWrite addr v st = st := by
  simp only [memWrite, h]

/-! ### What `readTrap` leaves alone -/

@[simp] theorem readTrap_romBoundary (addr : Word) (st : State) : ((readTrap addr st).2).romBoundary = st.romBoundary := rfl
@[simp] theorem readTrap_specialStart (addr : Word) (st : State) : ((readTrap addr st).2).specialStart = st.specialStart := rfl
@[simp] theorem readTrap_specialEnd (addr : Word) (st : State) : ((readTrap addr st).2).specialEnd = st.specialEnd := rfl
@[simp] theorem readTrap_readCallback (addr : Word) (st : State) : ((readTrap addr st).2).readCallback = st.readCallback := rfl
@[simp] theorem readTrap_writeCallback (addr : Word) (st : State) : ((readTrap addr st).2).writeCallback = st.writeCallback := rfl
@[simp] theorem readTrap_tickBudget (addr : Word) (st : State) : ((readTrap addr st).2).tickBudget = st.tickBudget := rfl
@[simp] theorem readTrap_record (addr : Word) (st : State) : ((readTrap addr st).2).record = st.record := rfl
@[simp] theorem readTrap_work (addr : Word) (st : State) : ((readTrap addr st).2).work = st.work := rfl
@[simp] theorem readTrap_budget (addr : Word) (st : State) : ((readTrap addr st).2).budget = st.budget := rfl
@[simp] theorem readTrap_phase (addr : Word) (st : State) : ((readTrap addr st).2).phase = st.phase := rfl
@[simp] theorem readTrap_result (addr : Word) (st : State) : ((readTrap addr st).2).result = st.result := rfl

/-! ### What `writeTrap` leaves alone -/

@[simp] theorem writeTrap_romBoundary (addr : Word) (v : Byte) (st : State) : (writeTrap addr v st).romBoundary = st.romBoundary := rfl
@[simp] theorem writeTrap_specialStart (addr : Word) (v : Byte) (st : State) : (writeTrap addr v st).specialStart = st.specialStart := rfl
@[simp] theorem writeTrap_specialEnd (addr : Word) (v : Byte) (st : State) : (writeTrap addr v st).specialEnd = st.specialEnd := rfl
@[simp] theorem writeTrap_readCallback (addr : Word) (v : Byte) (st : State) : (writeTrap addr v st).readCallback = st.readCallback := rfl
@[simp] theorem writeTrap_writeCallback (addr : Word) (v : Byte) (st : State) : (writeTrap addr v st).writeCallback = st.writeCallback := rfl
@[simp] theorem writeTrap_tickBudget (addr : Word) (v : Byte) (st : State) : (writeTrap addr v st).tickBudget = st.tickBudget := rfl
@[simp] theorem writeTrap_record (addr : Word) (v : Byte) (st : State) : (writeTrap addr v st).record = st.record := rfl
@[simp] theorem writeTrap_work (addr : Word) (v : Byte) (st : State) : (writeTrap addr v st).work = st.work := rfl
@[simp] theorem writeTrap_budget (addr : Word) (v : Byte) (st : State) : (writeTrap addr v st).budget = st.budget := rfl
@[simp] theorem writeTrap_phase (addr : Word) (v : Byte) (st : State) : (writeTrap addr v st).phase = st.phase := rfl
@[simp] theorem writeTrap_result (addr : Word) (v : Byte) (st : State) : (writeTrap addr v st).result = st.result := rfl

/-! ### What `memRead` leaves alone -/

@[simp] theorem memRead_romBoundary (addr : Word) (st : State) : ((memRead addr st).2).romBoundary = st.romBoundary := by
  unfold memRead
  cases st.classify addr <;> rfl
@[simp] theorem memRead_specialStart (addr : Word) (st : State) : ((memRead addr st).2).specialStart = st.specialStart := by
  unfold memRead
  cases st.classify addr <;> rfl
@[simp] theorem memRead_specialEnd (addr : Word) (st : State) : ((memRead addr st).2).specialEnd = st.specialEnd := by
  unfold memRead
  cases st.classify addr <;> rfl
@[simp] theorem memRead_readCallback (addr : Word) (st : State) : ((memRead addr st).2).readCallback = st.readCallback := by
  unfold memRead
  cases st.classify addr <;> rfl
@[simp] theorem memRead_writeCallback (addr : Word) (st : State) : ((memRead addr st).2).writeCallback = st.writeCallback := by
  unfold memRead
  cases st.classify addr <;> rfl
@[simp] theorem memRead_tickBudget (addr : Word) (st : State) : ((memRead addr st).2).tickBudget = st.tickBudget := by
  unfold memRead
  cases st.classify addr <;> rfl
@[simp] theorem memRead_record (addr : Word) (st : State) : ((memRead addr st).2).record = st.record := by
  unfold memRead
  cases st.classify addr <;> rfl
@[simp] theorem memRead_work (addr : Word) (st : State) : ((memRead addr st).2).work = st.work := by
  unfold memRead
  cases st.classify addr <;> rfl
@[simp] theorem memRead_budget (addr : Word) (st : State) : ((memRead addr st).2).budget = st.budget := by
  unfold memRead
  cases st.classify addr <;> rfl
@[simp] theorem memRead_phase (addr : Word) (st : State) : ((memRead addr st).2).phase = st.phase := by
  unfold memRead
  cases st.classify addr <;> rfl
@[simp] theorem memRead_result (addr : Word) (st : State) : ((memRead addr st).2).result = st.result := by
  unfold memRead
  cases st.classify addr <;> rfl

/-! ### What `memWrite` leaves alone -/

@[simp] theorem memWrite_romBoundary (addr : Word) (v : Byte) (st : State) : (memWrite addr v st).romBoundary = st.romBoundary := by
  unfold memWrite
  cases st.classify addr <;> rfl
@[simp] theorem memWrite_specialStart (addr : Word) (v : Byte) (st : State) : (memWrite addr v st).specialStart = st.specialStart := by
  unfold memWrite
  cases st.classify addr <;> rfl
@[simp] theorem memWrite_specialEnd (addr : Word) (v : Byte) (st : State) : (memWrite addr v st).specialEnd = st.specialEnd := by
  unfold memWrite
  cases st.classify addr <;> rfl
@[simp] theorem memWrite_readCallback (addr : Word) (v : Byte) (st : State) : (memWrite addr v st).readCallback = st.readCallback := by
  unfold memWrite
  cases st.classify addr <;> rfl
@[simp] theorem memWrite_writeCallback (addr : Word) (v : Byte) (st : State) : (memWrite addr v st).writeCallback = st.writeCallback := by
  unfold memWrite
  cases st.classify addr <;> rfl
@[simp] theorem memWrite_tickBudget (addr : Word) (v : Byte) (st : State) : (memWrite addr v st).tickBudget = st.tickBudget := by
  unfold memWrite
  cases st.classify addr <;> rfl
@[simp] theorem memWrite_record (addr : Word) (v : Byte) (st : State) : (memWrite addr v st).record = st.record := by
  unfold memWrite
  cases st.classify addr <;> rfl
@[simp] theorem memWrite_work (addr : Word) (v : Byte) (st : State) : (memWrite addr v st).work = st.work := by
  unfold memWrite
  cases st.classify addr <;> rfl
@[simp] theorem memWrite_budget (addr : Word) (v : Byte) (st : State) : (memWrite addr v st).budget = st.budget := by
  unfold memWrite
  cases st.classify addr <;> rfl
@[simp] theorem memWrite_phase (addr : Word) (v : Byte) (st : State) : (memWrite addr v st).phase = st.phase := by
  unfold memWrite
  cases st.classify addr <;> rfl
@[simp] theorem memWrite_result (addr : Word) (v : Byte) (st : State) : (memWrite addr v st).result = st.result := by
  unfold memWrite
  cases st.classify addr <;> rfl

/-! ### What `memReadPair` leaves alone -/

@[simp] theorem memReadPair_romBoundary (lo hi : Word) (st : State) : ((memReadPair lo hi st).2).romBoundary = st.romBoundary := by simp [memReadPair]
@[simp] theorem memReadPair_specialStart (lo hi : Word) (st : State) : ((memReadPair lo hi st).2).specialStart = st.specialStart := by simp [memReadPair]
@[simp] theorem memReadPair_specialEnd (lo hi : Word) (st : State) : ((memReadPair lo hi st).2).specialEnd = st.specialEnd := by simp [memReadPair]
@[simp] theorem memReadPair_readCallback (lo hi : Word) (st : State) : ((memReadPair lo hi st).2).readCallback = st.readCallback := by simp [memReadPair]
@[simp] theorem memReadPair_writeCallback (lo hi : Word) (st : State) : ((memReadPair lo hi st).2).writeCallback = st.writeCallback := by simp [memReadPair]
@[simp] theorem memReadPair_tickBudget (lo hi : Word) (st : State) : ((memReadPair lo hi st).2).tickBudget = st.tickBudget := by simp [memReadPair]
@[simp] theorem memReadPair_record (lo hi : Word) (st : State) : ((memReadPair lo hi st).2).record = st.record := by simp [memReadPair]
@[simp] theorem memReadPair_work (lo hi : Word) (st : State) : ((memReadPair lo hi st).2).work = st.work := by simp [memReadPair]
@[simp] theorem memReadPair_budget (lo hi : Word) (st : State) : ((memReadPair lo hi st).2).budget = st.budget := by simp [memReadPair]
@[simp] theorem memReadPair_phase (lo hi : Word) (st : State) : ((memReadPair lo hi st).2).phase = st.phase := by simp [memReadPair]
@[simp] theorem memReadPair_result (lo hi : Word) (st : State) : ((memReadPair lo hi st).2).result = st.result := by simp [memReadPair]

/-! ### What `memReadWord` leaves alone -/

@[simp] theorem memReadWord_romBoundary (addr : Word) (st : State) : ((memReadWord addr st).2).romBoundary = st.romBoundary := by simp [memReadWord]
@[simp] theorem memReadWord_specialStart (addr : Word) (st : State) : ((memReadWord addr st).2).specialStart = st.specialStart := by simp [memReadWord]
@[simp] theorem memReadWord_specialEnd (addr : Word) (st : State) : ((memReadWord addr st).2).specialEnd = st.specialEnd := by simp [memReadWord]
@[simp] theorem memReadWord_readCallback (addr : Word) (st : State) : ((memReadWord addr st).2).readCallback = st.readCallback := by simp [memReadWord]
@[simp] theorem memReadWord_writeCallback (addr : Word) (st : State) : ((memReadWord addr st).2).writeCallback = st.writeCallback := by simp [memReadWord]
@[simp] theorem memReadWord_tickBudget (addr : Word) (st : State) : ((memReadWord addr st).2).tickBudget = st.tickBudget := by simp [memReadWord]
@[simp] theorem memReadWord_record (addr : Word) (st : State) : ((memReadWord addr st).2).record = st.record := by simp [memReadWord]
@[simp] theorem memReadWord_work (addr : Word) (st : State) : ((memReadWord addr st).2).work = st.work := by simp [memReadWord]
@[simp] theorem memReadWord_budget (addr : Word) (st : State) : ((memReadWord addr st).2).budget = st.budget := by simp [memReadWord]
@[simp] theorem memReadWord_phase (addr : Word) (st : State) : ((memReadWord addr st).2).phase = st.phase := by simp [memReadWord]
@[simp] theorem memReadWord_result (addr : Word) (st : State) : ((memReadWord addr st).2).result = st.result := by simp [memReadWord]

/-! ### What `resolve` leaves alone -/

@[simp] theorem resolve_romBoundary (e : Ea) (st : State) : (resolve e st).2.romBoundary = st.romBoundary := by
  cases e <;> simp [resolve, indxZpWrap]
@[simp] theorem resolve_specialStart (e : Ea) (st : State) : (resolve e st).2.specialStart = st.specialStart := by
  cases e <;> simp [resolve, indxZpWrap]
@[simp] theorem resolve_specialEnd (e : Ea) (st : State) : (resolve e st).2.specialEnd = st.specialEnd := by
  cases e <;> simp [resolve, indxZpWrap]
@[simp] theorem resolve_readCallback (e : Ea) (st : State) : (resolve e st).2.readCallback = st.readCallback := by
  cases e <;> simp [resolve, indxZpWrap]
@[simp] theorem resolve_writeCallback (e : Ea) (st : State) : (resolve e st).2.writeCallback = st.writeCallback := by
  cases e <;> simp [resolve, indxZpWrap]
@[simp] theorem resolve_tickBudget (e : Ea) (st : State) : (resolve e st).2.tickBudget = st.tickBudget := by
  cases e <;> simp [resolve, indxZpWrap]
@[simp] theorem resolve_record (e : Ea) (st : State) : (resolve e st).2.record = st.record := by
  cases e <;> simp [resolve, indxZpWrap]
@[simp] theorem resolve_work (e : Ea) (st : State) : (resolve e st).2.work = st.work := by
  cases e <;> simp [resolve, indxZpWrap]
@[simp] theorem resolve_budget (e : Ea) (st : State) : (resolve e st).2.budget = st.budget := by
  cases e <;> simp [resolve, indxZpWrap]
@[simp] theorem resolve_phase (e : Ea) (st : State) : (resolve e st).2.phase = st.phase := by
  cases e <;> simp [resolve, indxZpWrap]
@[simp] theorem resolve_result (e : Ea) (st : State) : (resolve e st).2.result = st.result := by
  cases e <;> simp [resolve, indxZpWrap]

/-! ### What `loadEa` leaves alone -/

@[simp] theorem loadEa_romBoundary (e : Ea) (st : State) : ((loadEa e st).2).romBoundary = st.romBoundary := by simp [loadEa]
@[simp] theorem loadEa_specialStart (e : Ea) (st : State) : ((loadEa e st).2).specialStart = st.specialStart := by simp [loadEa]
@[simp] theorem loadEa_specialEnd (e : Ea) (st : State) : ((loadEa e st).2).specialEnd = st.specialEnd := by simp [loadEa]
@[simp] theorem loadEa_readCallback (e : Ea) (st : State) : ((loadEa e st).2).readCallback = st.readCallback := by simp [loadEa]
@[simp] theorem loadEa_writeCallback (e : Ea) (st : State) : ((loadEa e st).2).writeCallback = st.writeCallback := by simp [loadEa]
@[simp] theorem loadEa_tickBudget (e : Ea) (st : State) : ((loadEa e st).2).tickBudget = st.tickBudget := by simp [loadEa]
@[simp] theorem loadEa_record (e : Ea) (st : State) : ((loadEa e st).2).record = st.record := by simp [loadEa]
@[simp] theorem loadEa_work (e : Ea) (st : State) : ((loadEa e st).2).work = st.work := by simp [loadEa]
@[simp] theorem loadEa_budget (e : Ea) (st : State) : ((loadEa e st).2).budget = st.budget := by simp [loadEa]
@[simp] theorem loadEa_phase (e : Ea) (st : State) : ((loadEa e st).2).phase = st.phase := by simp [loadEa]
@[simp] theorem loadEa_result (e : Ea) (st : State) : ((loadEa e st).2).result = st.result := by simp [loadEa]

/-! ### What `storeEa` leaves alone -/

@[simp] theorem storeEa_romBoundary (e : Ea) (v : Byte) (st : State) : (storeEa e v st).romBoundary = st.romBoundary := by simp [storeEa]
@[simp] theorem storeEa_specialStart (e : Ea) (v : Byte) (st : State) : (storeEa e v st).specialStart = st.specialStart := by simp [storeEa]
@[simp] theorem storeEa_specialEnd (e : Ea) (v : Byte) (st : State) : (storeEa e v st).specialEnd = st.specialEnd := by simp [storeEa]
@[simp] theorem storeEa_readCallback (e : Ea) (v : Byte) (st : State) : (storeEa e v st).readCallback = st.readCallback := by simp [storeEa]
@[simp] theorem storeEa_writeCallback (e : Ea) (v : Byte) (st : State) : (storeEa e v st).writeCallback = st.writeCallback := by simp [storeEa]
@[simp] theorem storeEa_tickBudget (e : Ea) (v : Byte) (st : State) : (storeEa e v st).tickBudget = st.tickBudget := by simp [storeEa]
@[simp] theorem storeEa_record (e : Ea) (v : Byte) (st : State) : (storeEa e v st).record = st.record := by simp [storeEa]
@[simp] theorem storeEa_work (e : Ea) (v : Byte) (st : State) : (storeEa e v st).work = st.work := by simp [storeEa]
@[simp] theorem storeEa_budget (e : Ea) (v : Byte) (st : State) : (storeEa e v st).budget = st.budget := by simp [storeEa]
@[simp] theorem storeEa_phase (e : Ea) (v : Byte) (st : State) : (storeEa e v st).phase = st.phase := by simp [storeEa]
@[simp] theorem storeEa_result (e : Ea) (v : Byte) (st : State) : (storeEa e v st).result = st.result := by simp [storeEa]

/-! ### What `push` and `pull` leave alone -/

@[simp] theorem push_romBoundary (v : Byte) (st : State) : (push v st).romBoundary = st.romBoundary := by simp [push]
@[simp] theorem push_specialStart (v : Byte) (st : State) : (push v st).specialStart = st.specialStart := by simp [push]
@[simp] theorem push_specialEnd (v : Byte) (st : State) : (push v st).specialEnd = st.specialEnd := by simp [push]
@[simp] theorem push_readCallback (v : Byte) (st : State) : (push v st).readCallback = st.readCallback := by simp [push]
@[simp] theorem push_writeCallback (v : Byte) (st : State) : (push v st).writeCallback = st.writeCallback := by simp [push]
@[simp] theorem push_tickBudget (v : Byte) (st : State) : (push v st).tickBudget = st.tickBudget := by simp [push]
@[simp] theorem push_record (v : Byte) (st : State) : (push v st).record = st.record := by simp [push]
@[simp] theorem push_work (v : Byte) (st : State) : (push v st).work = { st.work with s := st.work.s - 1 } := by simp [push]
@[simp] theorem push_budget (v : Byte) (st : State) : (push v st).budget = st.budget := by simp [push]
@[simp] theorem push_phase (v : Byte) (st : State) : (push v st).phase = st.phase := by simp [push]
@[simp] theorem push_result (v : Byte) (st : State) : (push v st).result = st.result := by simp [push]
@[simp] theorem pull_romBoundary (st : State) : (pull st).2.romBoundary = st.romBoundary := by simp [pull]
@[simp] theorem pull_specialStart (st : State) : (pull st).2.specialStart = st.specialStart := by simp [pull]
@[simp] theorem pull_specialEnd (st : State) : (pull st).2.specialEnd = st.specialEnd := by simp [pull]
@[simp] theorem pull_readCallback (st : State) : (pull st).2.readCallback = st.readCallback := by simp [pull]
@[simp] theorem pull_writeCallback (st : State) : (pull st).2.writeCallback = st.writeCallback := by simp [pull]
@[simp] theorem pull_tickBudget (st : State) : (pull st).2.tickBudget = st.tickBudget := by simp [pull]
@[simp] theorem pull_record (st : State) : (pull st).2.record = st.record := by simp [pull]
@[simp] theorem pull_work (st : State) : (pull st).2.work = { st.work with s := st.work.s + 1 } := by simp [pull]
@[simp] theorem pull_budget (st : State) : (pull st).2.budget = st.budget := by simp [pull]
@[simp] theorem pull_phase (st : State) : (pull st).2.phase = st.phase := by simp [pull]
@[simp] theorem pull_result (st : State) : (pull st).2.result = st.result := by simp [pull]
@[simp] theorem pushWord_romBoundary (w : Word) (st : State) : (pushWord w st).romBoundary = st.romBoundary := by simp [pushWord]
@[simp] theorem pushWord_specialStart (w : Word) (st : State) : (pushWord w st).specialStart = st.specialStart := by simp [pushWord]
@[simp] theorem pushWord_specialEnd (w : Word) (st : State) : (pushWord w st).specialEnd = st.specialEnd := by simp [pushWord]
@[simp] theorem pushWord_readCallback (w : Word) (st : State) : (pushWord w st).readCallback = st.readCallback := by simp [pushWord]
@[simp] theorem pushWord_writeCallback (w : Word) (st : State) : (pushWord w st).writeCallback = st.writeCallback := by simp [pushWord]
@[simp] theorem pushWord_tickBudget (w : Word) (st : State) : (pushWord w st).tickBudget = st.tickBudget := by simp [pushWord]
@[simp] theorem pushWord_record (w : Word) (st : State) : (pushWord w st).record = st.record := by simp [pushWord]
@[simp] theorem pushWord_work (w : Word) (st : State) : (pushWord w st).work = { st.work with s := st.work.s - 1 - 1 } := by simp [pushWord]
@[simp] theorem pushWord_budget (w : Word) (st : State) : (pushWord w st).budget = st.budget := by simp [pushWord]
@[simp] theorem pushWord_phase (w : Word) (st : State) : (pushWord w st).phase = st.phase := by simp [pushWord]
@[simp] theorem pushWord_result (w : Word) (st : State) : (pushWord w st).result = st.result := by simp [pushWord]
@[simp] theorem pullWord_romBoundary (st : State) : (pullWord st).2.romBoundary = st.romBoundary := by simp [pullWord]
@[simp] theorem pullWord_specialStart (st : State) : (pullWord st).2.specialStart = st.specialStart := by simp [pullWord]
@[simp] theorem pullWord_specialEnd (st : State) : (pullWord st).2.specialEnd = st.specialEnd := by simp [pullWord]
@[simp] theorem pullWord_readCallback (st : State) : (pullWord st).2.readCallback = st.readCallback := by simp [pullWord]
@[simp] theorem pullWord_writeCallback (st : State) : (pullWord st).2.writeCallback = st.writeCallback := by simp [pullWord]
@[simp] theorem pullWord_tickBudget (st : State) : (pullWord st).2.tickBudget = st.tickBudget := by simp [pullWord]
@[simp] theorem pullWord_record (st : State) : (pullWord st).2.record = st.record := by simp [pullWord]
@[simp] theorem pullWord_work (st : State) : (pullWord st).2.work = { st.work with s := st.work.s + 1 + 1 } := by simp [pullWord]
@[simp] theorem pullWord_budget (st : State) : (pullWord st).2.budget = st.budget := by simp [pullWord]
@[simp] theorem pullWord_phase (st : State) : (pullWord st).2.phase = st.phase := by simp [pullWord]
@[simp] theorem pullWord_result (st : State) : (pullWord st).2.result = st.result := by simp [pullWord]

/-! ### What an access can do to a state -/

/-- `st'` is reached from `st` by memory accesses: nothing but memory, `special_event`, the host's answers and the trap log
differs, and the log has only grown. -/
structure Accessed (st st' : State) : Prop where
  same : st' = { st with memory := st'.memory, specialEvent := st'.specialEvent, hostAnswers := st'.hostAnswers,
                          trapLog := st'.trapLog }
  grown : ∃ evs, st'.trapLog = evs ++ st.trapLog

theorem Accessed.refl (st : State) : Accessed st st := ⟨rfl, [], rfl⟩

theorem Accessed.trans {st st' st'' : State} (h : Accessed st st') (h' : Accessed st' st'') : Accessed st st'' := by
  obtain ⟨hs, evs, he⟩ := h
  obtain ⟨hs', evs', he'⟩ := h'
  refine ⟨?_, evs' ++ evs, by rw [he', he, List.append_assoc]⟩
  rw [hs', hs]

/-- A read that does not trap answers the stored byte and changes nothing; a read that traps adds one event. -/
theorem memRead_cases (addr : Word) (st : State) :
    (¬ st.isSpecial addr ∧ memRead addr st = (st.byteAt addr, st)) ∨
    (st.isSpecial addr ∧ memRead addr st = readTrap addr st ∧
      (memRead addr st).2.trapLog = .read addr (memRead addr st).1 :: st.trapLog) := by
  by_cases h : st.isSpecial addr
  · exact .inr ⟨h, memRead_special h, by rw [memRead_special h]; rfl⟩
  · exact .inl ⟨h, memRead_plain h⟩

/-- A write that does not trap stores in RAM and drops in ROM; a write that traps adds one event. -/
theorem memWrite_cases (addr : Word) (v : Byte) (st : State) :
    (st.classify addr = .ram ∧ memWrite addr v st = st.setByte addr v) ∨
    (st.classify addr = .rom ∧ memWrite addr v st = st) ∨
    (st.isSpecial addr ∧ memWrite addr v st = writeTrap addr v st ∧
      (memWrite addr v st).trapLog = .write addr v :: st.trapLog) := by
  cases h : st.classify addr
  · have hs := State.classify_special.mp h
    exact .inr (.inr ⟨hs, memWrite_special hs v, by rw [memWrite_special hs]; rfl⟩)
  · exact .inr (.inl ⟨rfl, memWrite_rom h v⟩)
  · exact .inl ⟨rfl, memWrite_ram h v⟩

theorem memRead_accessed (addr : Word) (st : State) : Accessed st (memRead addr st).2 := by
  rcases memRead_cases addr st with ⟨-, h⟩ | ⟨-, h, -⟩ <;> rw [h]
  · exact Accessed.refl st
  · exact ⟨rfl, [_], rfl⟩

theorem memWrite_accessed (addr : Word) (v : Byte) (st : State) : Accessed st (memWrite addr v st) := by
  rcases memWrite_cases addr v st with ⟨-, h⟩ | ⟨-, h⟩ | ⟨-, h, -⟩ <;> rw [h]
  · exact ⟨rfl, [], rfl⟩
  · exact Accessed.refl st
  · exact ⟨rfl, [_], rfl⟩

theorem memReadPair_accessed (lo hi : Word) (st : State) : Accessed st (memReadPair lo hi st).2 :=
  (memRead_accessed lo st).trans (memRead_accessed hi _)

theorem resolve_accessed (e : Ea) (st : State) : Accessed st (resolve e st).2 := by
  cases e <;> simp only [resolve, indxZpWrap, Bool.false_eq_true, if_false, memReadWord] <;>
    first | exact Accessed.refl st | exact memReadPair_accessed _ _ st

theorem loadEa_accessed (e : Ea) (st : State) : Accessed st (loadEa e st).2 :=
  (resolve_accessed e st).trans (memRead_accessed _ _)

theorem storeEa_accessed (e : Ea) (v : Byte) (st : State) : Accessed st (storeEa e v st) :=
  (resolve_accessed e st).trans (memWrite_accessed _ _ _)

/-- Where the trap log is as long as before, it is the same: no trap happened. -/
theorem Accessed.log_eq_of_length {st st' : State} (h : Accessed st st')
    (hl : st'.trapLog.length = st.trapLog.length) : st'.trapLog = st.trapLog := by
  obtain ⟨-, evs, he⟩ := h
  rw [he, List.length_append] at hl
  have : evs = [] := List.eq_nil_of_length_eq_zero (by omega)
  simpa [this] using he

/-- No trap at the end of two accesses means none in the first and none in the second. -/
theorem Accessed.noTrap_split {st st' st'' : State} (h : Accessed st st') (h' : Accessed st' st'')
    (hn : NoTrap st st'') : NoTrap st st' ∧ NoTrap st' st'' := by
  obtain ⟨-, evs, he⟩ := h
  obtain ⟨-, evs', he'⟩ := h'
  have hlen : st''.trapLog.length = st.trapLog.length := congrArg List.length hn
  rw [he', he] at hlen
  simp only [List.length_append] at hlen
  have h1 : evs = [] := List.eq_nil_of_length_eq_zero (by omega)
  have h2 : evs' = [] := List.eq_nil_of_length_eq_zero (by omega)
  constructor
  · simpa [NoTrap, h1] using he
  · simpa [NoTrap, h2] using he'

/-- A read after which no trap is logged left the state as it was. -/
theorem memRead_of_noTrap {addr : Word} {st : State} (h : NoTrap st (memRead addr st).2) :
    memRead addr st = (st.byteAt addr, st) := by
  rcases memRead_cases addr st with ⟨-, hr⟩ | ⟨-, -, hl⟩
  · exact hr
  · have := congrArg List.length (hl.symm.trans h)
    simp at this

/-- A write after which no trap is logged stored its byte in RAM or dropped it in ROM. -/
theorem memWrite_of_noTrap {addr : Word} {v : Byte} {st : State} (h : NoTrap st (memWrite addr v st)) :
    (st.classify addr = .ram ∧ memWrite addr v st = st.setByte addr v) ∨
    (st.classify addr = .rom ∧ memWrite addr v st = st) := by
  rcases memWrite_cases addr v st with hr | hr | ⟨-, -, hl⟩
  · exact .inl hr
  · exact .inr hr
  · have := congrArg List.length (hl.symm.trans h)
    simp at this

/-- A resolver run after which no trap is logged left the state as it was. -/
theorem resolve_of_noTrap {e : Ea} {st : State} (h : NoTrap st (resolve e st).2) : (resolve e st).2 = st := by
  have pair : ∀ lo hi : Word, NoTrap st (memReadPair lo hi st).2 → (memReadPair lo hi st).2 = st := by
    intro lo hi hp
    obtain ⟨h1, h2⟩ := (memRead_accessed lo st).noTrap_split (memRead_accessed hi _) hp
    have e1 := memRead_of_noTrap h1
    have e2 := memRead_of_noTrap h2
    simp only [memReadPair, e2]
    rw [e1]
  cases e <;> simp only [resolve, indxZpWrap, Bool.false_eq_true, if_false, memReadWord] at h ⊢ <;>
    exact pair _ _ h

/-- A load after which no trap is logged read the byte at the resolved address and left the state as it was. -/
theorem loadEa_of_noTrap {e : Ea} {st : State} (h : NoTrap st (loadEa e st).2) :
    loadEa e st = (st.byteAt (resolve e st).1, st) := by
  obtain ⟨h1, h2⟩ := (resolve_accessed e st).noTrap_split (memRead_accessed _ _) h
  have e1 := resolve_of_noTrap h1
  have e2 := memRead_of_noTrap h2
  rw [e1] at e2
  simp only [loadEa, e1, e2]

/-! ### An access does not look at the working registers -/

theorem memRead_withWork (addr : Word) (st : State) (w : Regs) :
    memRead addr (st.withWork w) = ((memRead addr st).1, (memRead addr st).2.withWork w) := by
  have hc : (st.withWork w).classify addr = st.classify addr := rfl
  unfold memRead
  rw [hc]
  cases st.classify addr <;> rfl

theorem memWrite_withWork (addr : Word) (v : Byte) (st : State) (w : Regs) :
    memWrite addr v (st.withWork w) = (memWrite addr v st).withWork w := by
  have hc : (st.withWork w).classify addr = st.classify addr := rfl
  unfold memWrite
  rw [hc]
  cases st.classify addr <;> rfl

theorem memReadPair_withWork (lo hi : Word) (st : State) (w : Regs) :
    memReadPair lo hi (st.withWork w) = ((memReadPair lo hi st).1, (memReadPair lo hi st).2.withWork w) := by
  simp only [memReadPair, memRead_withWork]

/-- The working registers an access leaves are those it was given. -/
theorem Accessed.withWork {st st' : State} (h : Accessed st st') : st'.withWork st.work = st' := by
  rw [h.same]
  rfl

/-- A push, as the write at the stack pointer and the new stack pointer. -/
theorem push_eq (v : Byte) (st : State) :
    push v st = (memWrite (stackAddr st.work.s) v st).withWork { st.work with s := st.work.s - 1 } := by
  simp only [push, State.setS_eq, memWrite_work]

/-- A pull, as the read above the stack pointer and the new stack pointer. -/
theorem pull_eq (st : State) :
    pull st = ((memRead (stackAddr (st.work.s + 1)) st).1,
      (memRead (stackAddr (st.work.s + 1)) st).2.withWork { st.work with s := st.work.s + 1 }) := by
  simp only [pull, State.setS_eq, memRead_withWork]

theorem push_withWork (v : Byte) (st : State) (w : Regs) (h : w.s = st.work.s) :
    push v (st.withWork w) = (push v st).withWork { w with s := w.s - 1 } := by
  simp only [push_eq, State.withWork_work, h, memWrite_withWork, State.withWork_withWork]

theorem pull_withWork (st : State) (w : Regs) (h : w.s = st.work.s) :
    pull (st.withWork w) = ((pull st).1, (pull st).2.withWork { w with s := w.s + 1 }) := by
  simp only [pull_eq, State.withWork_work, h, memRead_withWork, State.withWork_withWork]

/-! ### The canonical form -/

theorem readTrap_wf {addr : Word} {st : State} (h : Memory.wf st.memory) : Memory.wf (readTrap addr st).2.memory :=
  Memory.write_wf (Memory.pokeAll_wf h _) addr.isLt _

theorem writeTrap_wf {addr : Word} {v : Byte} {st : State} (h : Memory.wf st.memory) :
    Memory.wf (writeTrap addr v st).memory :=
  Memory.pokeAll_wf h _

theorem setByte_wf {addr : Word} {v : Byte} {st : State} (h : Memory.wf st.memory) :
    Memory.wf (st.setByte addr v).memory :=
  Memory.write_wf h addr.isLt v

theorem memRead_wf {addr : Word} {st : State} (h : Memory.wf st.memory) : Memory.wf (memRead addr st).2.memory := by
  rcases memRead_cases addr st with ⟨-, hr⟩ | ⟨-, hr, -⟩ <;> rw [hr]
  · exact h
  · exact readTrap_wf h

theorem memWrite_wf {addr : Word} {v : Byte} {st : State} (h : Memory.wf st.memory) :
    Memory.wf (memWrite addr v st).memory := by
  rcases memWrite_cases addr v st with ⟨-, hr⟩ | ⟨-, hr⟩ | ⟨-, hr, -⟩ <;> rw [hr]
  · exact setByte_wf h
  · exact h
  · exact writeTrap_wf h

theorem memReadPair_wf {lo hi : Word} {st : State} (h : Memory.wf st.memory) :
    Memory.wf (memReadPair lo hi st).2.memory :=
  memRead_wf (memRead_wf h)

theorem resolve_wf {e : Ea} {st : State} (h : Memory.wf st.memory) : Memory.wf (resolve e st).2.memory := by
  cases e <;> simp only [resolve, indxZpWrap, Bool.false_eq_true, if_false, memReadWord] <;>
    first | exact h | exact memReadPair_wf h

theorem loadEa_wf {e : Ea} {st : State} (h : Memory.wf st.memory) : Memory.wf (loadEa e st).2.memory :=
  memRead_wf (resolve_wf h)

theorem storeEa_wf {e : Ea} {v : Byte} {st : State} (h : Memory.wf st.memory) : Memory.wf (storeEa e v st).memory :=
  memWrite_wf (resolve_wf h)

theorem push_wf {v : Byte} {st : State} (h : Memory.wf st.memory) : Memory.wf (push v st).memory :=
  memWrite_wf h

theorem pull_wf {st : State} (h : Memory.wf st.memory) : Memory.wf (pull st).2.memory :=
  memRead_wf h

theorem pushWord_wf {w : Word} {st : State} (h : Memory.wf st.memory) : Memory.wf (pushWord w st).memory :=
  push_wf (push_wf h)

theorem pullWord_wf {st : State} (h : Memory.wf st.memory) : Memory.wf (pullWord st).2.memory :=
  pull_wf (pull_wf h)

end Sys2Proof.Machine
end

