-- ==== Sys2Proof/Laws/Decode.lean ====
section
/-! SUPPORT. The byte order of words (spec/20_memory.md R60), the modes' operand bytes, and that every instruction is well
formed. -/

namespace Sys2Proof.Laws

@[simp] theorem hiByte_wordOf (hi lo : Byte) : hiByte (wordOf hi lo) = hi := by
  apply BitVec.eq_of_getLsbD_eq
  intro k hk
  simp only [hiByte, wordOf, BitVec.getLsbD_extractLsb', BitVec.getLsbD_append, hk, decide_true, Bool.true_and]
  simp

@[simp] theorem loByte_wordOf (hi lo : Byte) : loByte (wordOf hi lo) = lo := by
  apply BitVec.eq_of_getLsbD_eq
  intro k hk
  simp only [loByte, wordOf, BitVec.getLsbD_extractLsb', BitVec.getLsbD_append, hk, decide_true, Bool.true_and]
  simp [hk]

@[simp] theorem wordOf_bytes (w : Word) : wordOf (hiByte w) (loByte w) = w := by
  apply BitVec.eq_of_getLsbD_eq
  intro k hk
  simp only [hiByte, loByte, wordOf, BitVec.getLsbD_extractLsb', BitVec.getLsbD_append]
  by_cases h : k < 8
  · simp [h]
  · simp [h, show k - 8 < 8 by omega, show 8 + (k - 8) = k by omega]

/-- An operand has as many bytes as its mode says (R82). -/
theorem operand_bytes_length (o : Operand) : o.bytes.length = o.mode.operandBytes := by
  cases o with
  | mem e => cases e <;> rfl
  | _ => rfl

/-- Every instruction's mnemonic takes the instruction's addressing mode. -/
theorem Instr.wellFormed (i : Instr) : i.wellFormed = true := by
  cases i <;> rfl

/-- A found table row has the opcode byte it was looked up with. -/
theorem tableEntry_opcode {op : Byte} {row : TableRow} (h : tableEntry op = some row) : row.opcode = op := by
  simpa using List.find?_some h

/-- A found table row is a row of the table. -/
theorem tableEntry_mem {op : Byte} {row : TableRow} (h : tableEntry op = some row) : row ∈ dispatchTable :=
  List.mem_of_find?_eq_some h

end Sys2Proof.Laws
end

