-- ==== Sys2Proof/Laws/Exec.lean ====
section
/-! SUPPORT. `exec` by mnemonic and operand: the 151 arms are 56 operations on an operand (`effect`), and every one of
them reaches its state by memory accesses and register writes (`Ran`). Proofs about all instructions go by `exec_eq` and
case on the mnemonic. -/

namespace Sys2Proof.Machine

/-- The byte operand of a load, compare or arithmetic instruction; an operand without a byte gives 0. -/
def loadedOperand (o : Operand) (st : State) : Byte × State :=
  match o with
  | .imm b => loadImm b st
  | .mem e => loadEa e st
  | .acc | .implied => (0, st)

/-- A read-modify-write on an operand; nothing where the operand is none of its forms. -/
def modifyOperand (f : Byte → Byte → Byte × Byte) (o : Operand) (st : State) : State :=
  match o with
  | .mem e => modifyEa f e st
  | .acc => modifyAcc f st
  | .imm _ | .implied => st

/-- A store on an operand; nothing where the operand has no address. -/
def storeOperand (o : Operand) (v : Byte) (st : State) : State :=
  match o with
  | .mem e => storeEa e v st
  | .imm _ | .acc | .implied => st

/-- A branch on an operand; nothing where it is no branch target. -/
def branchOperand (cond : Bool) (o : Operand) (st : State) : State :=
  match o with
  | .mem (.rel b) => branch cond b st
  | _ => st

/-- A jump on an operand; nothing where it has no address. -/
def jumpOperand (o : Operand) (st : State) : State :=
  match o with
  | .mem e => jmpOp e st
  | .imm _ | .acc | .implied => st

/-- JSR on an operand; nothing where it is no absolute address. -/
def callOperand (o : Operand) (st : State) : State :=
  match o with
  | .mem (.abs w) => jsrOp w st
  | _ => st

/-- The state an instruction leads to, by its mnemonic and its operand. -/
def effect (m : Mnemonic) (o : Operand) (st : State) : State :=
  match m with
  | .ora => oraOp (loadedOperand o st)
  | .and => andOp (loadedOperand o st)
  | .eor => eorOp (loadedOperand o st)
  | .asl => modifyOperand aslCore o st
  | .lsr => modifyOperand lsrCore o st
  | .rol => modifyOperand rolCore o st
  | .ror => modifyOperand rorCore o st
  | .inc => modifyOperand incCore o st
  | .dec => modifyOperand decCore o st
  | .bit => bitOp (loadedOperand o st)
  | .cmp => cmpOp (loadedOperand o st)
  | .cpx => cpxOp (loadedOperand o st)
  | .cpy => cpyOp (loadedOperand o st)
  | .adc => adcOp (loadedOperand o st)
  | .sbc => sbcOp (loadedOperand o st)
  | .pha => push st.work.a st
  | .pla => plaOp st
  | .php => push (st.work.p ||| 0x30) st
  | .plp => plpOp st
  | .jsr => callOperand o st
  | .rts => rtsOp st
  | .brk => takeBreak st
  | .rti => returnFromBreak st
  | .bpl => branchOperand (!flagN st.work.p) o st
  | .bmi => branchOperand (flagN st.work.p) o st
  | .bvc => branchOperand (!flagV st.work.p) o st
  | .bvs => branchOperand (flagV st.work.p) o st
  | .bcc => branchOperand (!flagC st.work.p) o st
  | .bcs => branchOperand (flagC st.work.p) o st
  | .bne => branchOperand (!flagZ st.work.p) o st
  | .beq => branchOperand (flagZ st.work.p) o st
  | .jmp => jumpOperand o st
  | .tax => assignX st.work.a st
  | .txa => assignA st.work.x st
  | .tay => assignY st.work.a st
  | .tya => assignA st.work.y st
  | .tsx => st.setX st.work.s
  | .txs => st.setS st.work.x
  | .inx => assignX (st.work.x + 1) st
  | .iny => assignY (st.work.y + 1) st
  | .dex => assignX (st.work.x - 1) st
  | .dey => assignY (st.work.y - 1) st
  | .lda => ldaOp (loadedOperand o st)
  | .ldx => ldxOp (loadedOperand o st)
  | .ldy => ldyOp (loadedOperand o st)
  | .sta => storeOperand o st.work.a st
  | .stx => storeOperand o st.work.x st
  | .sty => storeOperand o st.work.y st
  | .clc => st.setP (putC false st.work.p)
  | .sec => st.setP (putC true st.work.p)
  | .cli => st.setP (putI false st.work.p)
  | .sei => st.setP (putI true st.work.p)
  | .clv => st.setP (putV false st.work.p)
  | .cld => st.setP (putD false st.work.p)
  | .sed => st.setP (putD true st.work.p)
  | .nop => st

/-- Every instruction answers a next state, the one `effect` gives by its mnemonic and its operand. -/
theorem exec_eq (i : Instr) (st : State) : exec i st = .next (effect i.mnemonic i.operand st) := by
  cases i <;> rfl

/-- `t` is reached from `st` by memory accesses, register writes and cycle charges: the rest of the state is the same, the
trap log has only grown, and memory stays in its canonical form. -/
structure Ran (st t : State) : Prop where
  same : t = { st with work := t.work, budget := t.budget, memory := t.memory, specialEvent := t.specialEvent,
                       hostAnswers := t.hostAnswers, trapLog := t.trapLog }
  grown : ∃ evs, t.trapLog = evs ++ st.trapLog
  wf : Memory.wf st.memory → Memory.wf t.memory

theorem Ran.refl (st : State) : Ran st st := ⟨rfl, ⟨[], rfl⟩, id⟩

theorem Ran.trans {st t u : State} (h : Ran st t) (h' : Ran t u) : Ran st u := by
  obtain ⟨hs, ⟨evs, he⟩, w⟩ := h
  obtain ⟨hs', ⟨evs', he'⟩, w'⟩ := h'
  refine ⟨?_, ⟨evs' ++ evs, by rw [he', he, List.append_assoc]⟩, w' ∘ w⟩
  rw [hs', hs]

theorem Ran.withWork {st t : State} (h : Ran st t) (w : Regs) : Ran st (t.withWork w) :=
  ⟨by rw [h.same]; rfl, h.grown, h.wf⟩

theorem Ran.charge {st t : State} (h : Ran st t) (n : Nat) : Ran st (t.charge n) :=
  ⟨by rw [h.same]; rfl, h.grown, h.wf⟩

theorem Accessed.ran {st t : State} (h : Accessed st t) (hw : Memory.wf st.memory → Memory.wf t.memory) : Ran st t :=
  ⟨by rw [h.same], h.grown, hw⟩

theorem memRead_ran (addr : Word) (st : State) : Ran st (memRead addr st).2 :=
  (memRead_accessed addr st).ran memRead_wf

theorem memWrite_ran (addr : Word) (v : Byte) (st : State) : Ran st (memWrite addr v st) :=
  (memWrite_accessed addr v st).ran memWrite_wf

theorem resolve_ran (e : Ea) (st : State) : Ran st (resolve e st).2 := (resolve_accessed e st).ran resolve_wf

theorem loadedOperand_ran (o : Operand) (st : State) : Ran st (loadedOperand o st).2 := by
  cases o
  · exact Ran.refl st
  · exact (loadEa_accessed _ st).ran loadEa_wf
  · exact Ran.refl st
  · exact Ran.refl st

theorem modifyEa_ran (f : Byte → Byte → Byte × Byte) (e : Ea) (st : State) : Ran st (modifyEa f e st) :=
  (((resolve_ran e st).trans (memRead_ran _ _)).trans (memWrite_ran _ _ _)).withWork _

theorem modifyOperand_ran (f : Byte → Byte → Byte × Byte) (o : Operand) (st : State) :
    Ran st (modifyOperand f o st) := by
  cases o
  · exact Ran.refl st
  · exact modifyEa_ran f _ st
  · exact (Ran.refl st).withWork _
  · exact Ran.refl st

theorem storeOperand_ran (o : Operand) (v : Byte) (st : State) : Ran st (storeOperand o v st) := by
  cases o
  · exact Ran.refl st
  · exact (storeEa_accessed _ v st).ran storeEa_wf
  · exact Ran.refl st
  · exact Ran.refl st

theorem push_ran (v : Byte) (st : State) : Ran st (push v st) := (memWrite_ran _ _ _).withWork _

theorem pull_ran (st : State) : Ran st (pull st).2 := ((Ran.refl st).withWork _).trans (memRead_ran _ _)

theorem pushWord_ran (w : Word) (st : State) : Ran st (pushWord w st) := (push_ran _ _).trans (push_ran _ _)

theorem pullWord_ran (st : State) : Ran st (pullWord st).2 := (pull_ran _).trans (pull_ran _)

theorem takeBreak_ran (st : State) : Ran st (takeBreak st) :=
  (((((pushWord_ran _ st).withWork _).trans (push_ran _ _)).trans (memRead_ran _ _)).trans (memRead_ran _ _)).withWork _

theorem returnFromBreak_ran (st : State) : Ran st (returnFromBreak st) :=
  (((pull_ran st).withWork _).trans (pullWord_ran _)).withWork _

theorem branch_ran (cond : Bool) (b : Byte) (st : State) : Ran st (branch cond b st) := by
  cases cond
  · exact Ran.refl st
  · exact ((Ran.refl st).withWork _).charge _

theorem branchOperand_ran (cond : Bool) (o : Operand) (st : State) : Ran st (branchOperand cond o st) := by
  unfold branchOperand
  split
  · exact branch_ran cond _ st
  · exact Ran.refl st

theorem jumpOperand_ran (o : Operand) (st : State) : Ran st (jumpOperand o st) := by
  cases o
  · exact Ran.refl st
  · exact (resolve_ran _ st).withWork _
  · exact Ran.refl st
  · exact Ran.refl st

theorem callOperand_ran (o : Operand) (st : State) : Ran st (callOperand o st) := by
  unfold callOperand
  split
  · exact (pushWord_ran _ st).withWork _
  · exact Ran.refl st

/-- Every instruction reaches its state by memory accesses, register writes and cycle charges. -/
theorem effect_ran (m : Mnemonic) (o : Operand) (st : State) : Ran st (effect m o st) := by
  cases m
  case ora | and | eor | bit | cmp | cpx | cpy | adc | sbc | lda | ldx | ldy =>
    exact (loadedOperand_ran o st).withWork _
  case asl | lsr | rol | ror | inc | dec => exact modifyOperand_ran _ o st
  case sta | stx | sty => exact storeOperand_ran o _ st
  case pha | php => exact push_ran _ st
  case pla | plp => exact (pull_ran st).withWork _
  case jsr => exact callOperand_ran o st
  case rts => exact (pullWord_ran st).withWork _
  case brk => exact takeBreak_ran st
  case rti => exact returnFromBreak_ran st
  case bpl | bmi | bvc | bvs | bcc | bcs | bne | beq => exact branchOperand_ran _ o st
  case jmp => exact jumpOperand_ran o st
  case nop => exact Ran.refl st
  all_goals exact (Ran.refl st).withWork _

theorem exec_ran {i : Instr} {st t : State} (h : exec i st = .next t) : Ran st t := by
  rw [exec_eq] at h
  cases h
  exact effect_ran _ _ st

/-- The state a completed instruction leads to. -/
theorem eq_effect_of_exec {i : Instr} {st t : State} (h : exec i st = .next t) :
    t = effect i.mnemonic i.operand st := by
  rw [exec_eq] at h
  cases h
  rfl

/-- A run without a trap had none in its first part and none in its second. -/
theorem Ran.noTrap_split {st t u : State} (h : Ran st t) (h' : Ran t u) (hn : NoTrap st u) :
    NoTrap st t ∧ NoTrap t u := by
  obtain ⟨-, ⟨evs, he⟩, -⟩ := h
  obtain ⟨-, ⟨evs', he'⟩, -⟩ := h'
  have hlen := congrArg List.length hn
  rw [he', he] at hlen
  simp only [List.length_append] at hlen
  have h1 : evs = [] := List.eq_nil_of_length_eq_zero (by omega)
  have h2 : evs' = [] := List.eq_nil_of_length_eq_zero (by omega)
  constructor
  · simpa [NoTrap, h1] using he
  · simpa [NoTrap, h2] using he'

/-! ### What each operation on an operand leaves of the working registers and the budget -/

@[simp] theorem loadedOperand_work (o : Operand) (st : State) : (loadedOperand o st).2.work = st.work := by
  cases o <;> simp [loadedOperand, loadImm]
@[simp] theorem loadedOperand_budget (o : Operand) (st : State) : (loadedOperand o st).2.budget = st.budget := by
  cases o <;> simp [loadedOperand, loadImm]
@[simp] theorem storeOperand_work (o : Operand) (v : Byte) (st : State) : (storeOperand o v st).work = st.work := by
  cases o <;> simp [storeOperand]
@[simp] theorem storeOperand_budget (o : Operand) (v : Byte) (st : State) :
    (storeOperand o v st).budget = st.budget := by
  cases o <;> simp [storeOperand]
@[simp] theorem modifyOperand_budget (f : Byte → Byte → Byte × Byte) (o : Operand) (st : State) :
    (modifyOperand f o st).budget = st.budget := by
  cases o <;> simp [modifyOperand, modifyEa, modifyAcc]
@[simp] theorem jumpOperand_budget (o : Operand) (st : State) : (jumpOperand o st).budget = st.budget := by
  cases o <;> simp [jumpOperand, jmpOp]
@[simp] theorem callOperand_budget (o : Operand) (st : State) : (callOperand o st).budget = st.budget := by
  unfold callOperand
  split <;> simp [jsrOp]

/-- A read-modify-write writes no register but `a` and `p`. -/
theorem modifyOperand_work (f : Byte → Byte → Byte × Byte) (o : Operand) (st : State) :
    (modifyOperand f o st).work =
      { st.work with a := (modifyOperand f o st).work.a, p := (modifyOperand f o st).work.p } := by
  cases o <;> simp [modifyOperand, modifyEa, modifyAcc]

/-- A branch writes no register but `pc`. -/
theorem branchOperand_work (cond : Bool) (o : Operand) (st : State) :
    (branchOperand cond o st).work = { st.work with pc := (branchOperand cond o st).work.pc } := by
  unfold branchOperand
  split
  · cases cond <;> rfl
  · rfl

/-- A jump writes no register but `pc`. -/
theorem jumpOperand_work (o : Operand) (st : State) :
    (jumpOperand o st).work = { st.work with pc := (jumpOperand o st).work.pc } := by
  cases o <;> simp [jumpOperand, jmpOp]

/-- JSR writes no register but `pc` and `s`. -/
theorem callOperand_work (o : Operand) (st : State) :
    (callOperand o st).work =
      { st.work with pc := (callOperand o st).work.pc, s := (callOperand o st).work.s } := by
  unfold callOperand
  split
  · simp [jsrOp]
  · rfl

/-- A branch charges one cycle when it is taken and none when it is not (R180). -/
@[simp] theorem branch_budget (cond : Bool) (b : Byte) (st : State) :
    (branch cond b st).budget = if cond then st.budget - 1 else st.budget := by
  cases cond <;> rfl

theorem branchOperand_budget (cond : Bool) (o : Operand) (st : State) :
    (branchOperand cond o st).budget = st.budget ∨ (branchOperand cond o st).budget = st.budget - 1 := by
  unfold branchOperand
  split
  · cases cond
    · exact .inl rfl
    · exact .inr rfl
  · exact .inl rfl

end Sys2Proof.Machine
end

