-- ==== Sys2Proof/Laws/Flags.lean ====
section
/-! SUPPORT. The flags of `p` after each flag write: which flag it sets and that the others stay. With these and
`flags_ext` no proof about flags goes below the eight bits. -/

namespace Sys2Proof.Machine

/-- Each bit of `p` after a masked write. -/
theorem getLsbD_putMask (mask : Byte) (b : Bool) (p : Byte) (k : Nat) (hk : k < 8) :
    (putMask mask b p).getLsbD k = if mask.getLsbD k then b else p.getLsbD k := by
  cases b <;> simp only [putMask, if_true, Bool.false_eq_true, if_false, BitVec.getLsbD_or, BitVec.getLsbD_and,
    BitVec.getLsbD_not, hk, decide_true, Bool.true_and] <;> cases mask.getLsbD k <;> simp

/-- Two flag bytes are equal when their eight flags are. -/
theorem flags_ext {p q : Byte} (hN : flagN p = flagN q) (hV : flagV p = flagV q) (hU : flagU p = flagU q)
    (hB : flagB p = flagB q) (hD : flagD p = flagD q) (hI : flagI p = flagI q) (hZ : flagZ p = flagZ q)
    (hC : flagC p = flagC q) : p = q := by
  apply BitVec.eq_of_getLsbD_eq
  intro k hk
  interval_cases k <;> assumption

/-! ### `putN` -/

@[simp] theorem flagN_putN (b : Bool) (p : Byte) : flagN (putN b p) = b :=
  getLsbD_putMask _ b p 7 (by decide)
@[simp] theorem flagV_putN (b : Bool) (p : Byte) : flagV (putN b p) = flagV p :=
  getLsbD_putMask _ b p 6 (by decide)
@[simp] theorem flagU_putN (b : Bool) (p : Byte) : flagU (putN b p) = flagU p :=
  getLsbD_putMask _ b p 5 (by decide)
@[simp] theorem flagB_putN (b : Bool) (p : Byte) : flagB (putN b p) = flagB p :=
  getLsbD_putMask _ b p 4 (by decide)
@[simp] theorem flagD_putN (b : Bool) (p : Byte) : flagD (putN b p) = flagD p :=
  getLsbD_putMask _ b p 3 (by decide)
@[simp] theorem flagI_putN (b : Bool) (p : Byte) : flagI (putN b p) = flagI p :=
  getLsbD_putMask _ b p 2 (by decide)
@[simp] theorem flagZ_putN (b : Bool) (p : Byte) : flagZ (putN b p) = flagZ p :=
  getLsbD_putMask _ b p 1 (by decide)
@[simp] theorem flagC_putN (b : Bool) (p : Byte) : flagC (putN b p) = flagC p :=
  getLsbD_putMask _ b p 0 (by decide)

/-! ### `putV` -/

@[simp] theorem flagN_putV (b : Bool) (p : Byte) : flagN (putV b p) = flagN p :=
  getLsbD_putMask _ b p 7 (by decide)
@[simp] theorem flagV_putV (b : Bool) (p : Byte) : flagV (putV b p) = b :=
  getLsbD_putMask _ b p 6 (by decide)
@[simp] theorem flagU_putV (b : Bool) (p : Byte) : flagU (putV b p) = flagU p :=
  getLsbD_putMask _ b p 5 (by decide)
@[simp] theorem flagB_putV (b : Bool) (p : Byte) : flagB (putV b p) = flagB p :=
  getLsbD_putMask _ b p 4 (by decide)
@[simp] theorem flagD_putV (b : Bool) (p : Byte) : flagD (putV b p) = flagD p :=
  getLsbD_putMask _ b p 3 (by decide)
@[simp] theorem flagI_putV (b : Bool) (p : Byte) : flagI (putV b p) = flagI p :=
  getLsbD_putMask _ b p 2 (by decide)
@[simp] theorem flagZ_putV (b : Bool) (p : Byte) : flagZ (putV b p) = flagZ p :=
  getLsbD_putMask _ b p 1 (by decide)
@[simp] theorem flagC_putV (b : Bool) (p : Byte) : flagC (putV b p) = flagC p :=
  getLsbD_putMask _ b p 0 (by decide)

/-! ### `putD` -/

@[simp] theorem flagN_putD (b : Bool) (p : Byte) : flagN (putD b p) = flagN p :=
  getLsbD_putMask _ b p 7 (by decide)
@[simp] theorem flagV_putD (b : Bool) (p : Byte) : flagV (putD b p) = flagV p :=
  getLsbD_putMask _ b p 6 (by decide)
@[simp] theorem flagU_putD (b : Bool) (p : Byte) : flagU (putD b p) = flagU p :=
  getLsbD_putMask _ b p 5 (by decide)
@[simp] theorem flagB_putD (b : Bool) (p : Byte) : flagB (putD b p) = flagB p :=
  getLsbD_putMask _ b p 4 (by decide)
@[simp] theorem flagD_putD (b : Bool) (p : Byte) : flagD (putD b p) = b :=
  getLsbD_putMask _ b p 3 (by decide)
@[simp] theorem flagI_putD (b : Bool) (p : Byte) : flagI (putD b p) = flagI p :=
  getLsbD_putMask _ b p 2 (by decide)
@[simp] theorem flagZ_putD (b : Bool) (p : Byte) : flagZ (putD b p) = flagZ p :=
  getLsbD_putMask _ b p 1 (by decide)
@[simp] theorem flagC_putD (b : Bool) (p : Byte) : flagC (putD b p) = flagC p :=
  getLsbD_putMask _ b p 0 (by decide)

/-! ### `putI` -/

@[simp] theorem flagN_putI (b : Bool) (p : Byte) : flagN (putI b p) = flagN p :=
  getLsbD_putMask _ b p 7 (by decide)
@[simp] theorem flagV_putI (b : Bool) (p : Byte) : flagV (putI b p) = flagV p :=
  getLsbD_putMask _ b p 6 (by decide)
@[simp] theorem flagU_putI (b : Bool) (p : Byte) : flagU (putI b p) = flagU p :=
  getLsbD_putMask _ b p 5 (by decide)
@[simp] theorem flagB_putI (b : Bool) (p : Byte) : flagB (putI b p) = flagB p :=
  getLsbD_putMask _ b p 4 (by decide)
@[simp] theorem flagD_putI (b : Bool) (p : Byte) : flagD (putI b p) = flagD p :=
  getLsbD_putMask _ b p 3 (by decide)
@[simp] theorem flagI_putI (b : Bool) (p : Byte) : flagI (putI b p) = b :=
  getLsbD_putMask _ b p 2 (by decide)
@[simp] theorem flagZ_putI (b : Bool) (p : Byte) : flagZ (putI b p) = flagZ p :=
  getLsbD_putMask _ b p 1 (by decide)
@[simp] theorem flagC_putI (b : Bool) (p : Byte) : flagC (putI b p) = flagC p :=
  getLsbD_putMask _ b p 0 (by decide)

/-! ### `putZ` -/

@[simp] theorem flagN_putZ (b : Bool) (p : Byte) : flagN (putZ b p) = flagN p :=
  getLsbD_putMask _ b p 7 (by decide)
@[simp] theorem flagV_putZ (b : Bool) (p : Byte) : flagV (putZ b p) = flagV p :=
  getLsbD_putMask _ b p 6 (by decide)
@[simp] theorem flagU_putZ (b : Bool) (p : Byte) : flagU (putZ b p) = flagU p :=
  getLsbD_putMask _ b p 5 (by decide)
@[simp] theorem flagB_putZ (b : Bool) (p : Byte) : flagB (putZ b p) = flagB p :=
  getLsbD_putMask _ b p 4 (by decide)
@[simp] theorem flagD_putZ (b : Bool) (p : Byte) : flagD (putZ b p) = flagD p :=
  getLsbD_putMask _ b p 3 (by decide)
@[simp] theorem flagI_putZ (b : Bool) (p : Byte) : flagI (putZ b p) = flagI p :=
  getLsbD_putMask _ b p 2 (by decide)
@[simp] theorem flagZ_putZ (b : Bool) (p : Byte) : flagZ (putZ b p) = b :=
  getLsbD_putMask _ b p 1 (by decide)
@[simp] theorem flagC_putZ (b : Bool) (p : Byte) : flagC (putZ b p) = flagC p :=
  getLsbD_putMask _ b p 0 (by decide)

/-! ### `putC` -/

@[simp] theorem flagN_putC (b : Bool) (p : Byte) : flagN (putC b p) = flagN p :=
  getLsbD_putMask _ b p 7 (by decide)
@[simp] theorem flagV_putC (b : Bool) (p : Byte) : flagV (putC b p) = flagV p :=
  getLsbD_putMask _ b p 6 (by decide)
@[simp] theorem flagU_putC (b : Bool) (p : Byte) : flagU (putC b p) = flagU p :=
  getLsbD_putMask _ b p 5 (by decide)
@[simp] theorem flagB_putC (b : Bool) (p : Byte) : flagB (putC b p) = flagB p :=
  getLsbD_putMask _ b p 4 (by decide)
@[simp] theorem flagD_putC (b : Bool) (p : Byte) : flagD (putC b p) = flagD p :=
  getLsbD_putMask _ b p 3 (by decide)
@[simp] theorem flagI_putC (b : Bool) (p : Byte) : flagI (putC b p) = flagI p :=
  getLsbD_putMask _ b p 2 (by decide)
@[simp] theorem flagZ_putC (b : Bool) (p : Byte) : flagZ (putC b p) = flagZ p :=
  getLsbD_putMask _ b p 1 (by decide)
@[simp] theorem flagC_putC (b : Bool) (p : Byte) : flagC (putC b p) = b :=
  getLsbD_putMask _ b p 0 (by decide)

/-! ### `packFlags` -/

@[simp] theorem flagN_packFlags (n v u b d i z c : Bool) : flagN (packFlags n v u b d i z c) = n := by
  revert n v u b d i z c
  decide
@[simp] theorem flagV_packFlags (n v u b d i z c : Bool) : flagV (packFlags n v u b d i z c) = v := by
  revert n v u b d i z c
  decide
@[simp] theorem flagU_packFlags (n v u b d i z c : Bool) : flagU (packFlags n v u b d i z c) = u := by
  revert n v u b d i z c
  decide
@[simp] theorem flagB_packFlags (n v u b d i z c : Bool) : flagB (packFlags n v u b d i z c) = b := by
  revert n v u b d i z c
  decide
@[simp] theorem flagD_packFlags (n v u b d i z c : Bool) : flagD (packFlags n v u b d i z c) = d := by
  revert n v u b d i z c
  decide
@[simp] theorem flagI_packFlags (n v u b d i z c : Bool) : flagI (packFlags n v u b d i z c) = i := by
  revert n v u b d i z c
  decide
@[simp] theorem flagZ_packFlags (n v u b d i z c : Bool) : flagZ (packFlags n v u b d i z c) = z := by
  revert n v u b d i z c
  decide
@[simp] theorem flagC_packFlags (n v u b d i z c : Bool) : flagC (packFlags n v u b d i z c) = c := by
  revert n v u b d i z c
  decide

/-! ### `setzn` (R27) -/

@[simp] theorem flagN_setzn (v p : Byte) : flagN (setzn v p) = v.getLsbD 7 := by simp [setzn]
@[simp] theorem flagV_setzn (v p : Byte) : flagV (setzn v p) = flagV p := by simp [setzn]
@[simp] theorem flagU_setzn (v p : Byte) : flagU (setzn v p) = flagU p := by simp [setzn]
@[simp] theorem flagB_setzn (v p : Byte) : flagB (setzn v p) = flagB p := by simp [setzn]
@[simp] theorem flagD_setzn (v p : Byte) : flagD (setzn v p) = flagD p := by simp [setzn]
@[simp] theorem flagI_setzn (v p : Byte) : flagI (setzn v p) = flagI p := by simp [setzn]
@[simp] theorem flagZ_setzn (v p : Byte) : flagZ (setzn v p) = decide (v = 0) := by simp [setzn]
@[simp] theorem flagC_setzn (v p : Byte) : flagC (setzn v p) = flagC p := by simp [setzn]

/-! ### An adder core's flags (R143, R144) -/

@[simp] theorem flagN_aluFlags (res : AluResult) (p : Byte) : flagN (aluFlags res p) = res.n := by
  simp [aluFlags]
@[simp] theorem flagV_aluFlags (res : AluResult) (p : Byte) : flagV (aluFlags res p) = res.v := by
  simp [aluFlags]
@[simp] theorem flagU_aluFlags (res : AluResult) (p : Byte) : flagU (aluFlags res p) = flagU p := by
  simp [aluFlags]
@[simp] theorem flagB_aluFlags (res : AluResult) (p : Byte) : flagB (aluFlags res p) = flagB p := by
  simp [aluFlags]
@[simp] theorem flagD_aluFlags (res : AluResult) (p : Byte) : flagD (aluFlags res p) = flagD p := by
  simp [aluFlags]
@[simp] theorem flagI_aluFlags (res : AluResult) (p : Byte) : flagI (aluFlags res p) = flagI p := by
  simp [aluFlags]
@[simp] theorem flagZ_aluFlags (res : AluResult) (p : Byte) : flagZ (aluFlags res p) = res.z := by
  simp [aluFlags]
@[simp] theorem flagC_aluFlags (res : AluResult) (p : Byte) : flagC (aluFlags res p) = res.c := by
  simp [aluFlags]

end Sys2Proof.Machine
end

