-- ==== Sys2Proof/Laws/PerInstr.lean ====
section
/-! SUPPORT. One lemma for each instruction: the dispatch table's entry at its opcode byte has its addressing mode and its
mnemonic, and builds it from its operand bytes. -/

namespace Sys2Proof.Laws.TableEntry

/-- The table's entry at the opcode byte of `i` (R230, R231) is the row of `i`. -/
def Statement (i : Instr) : Prop :=
  ∃ row, tableEntry i.opcode = some row ∧ row.mode = i.operand.mode ∧ row.mnemonic = i.mnemonic ∧
    row.build (i.operand.bytes.getD 0 0) (i.operand.bytes.getD 1 0) = i

theorem oraIndX (b : Byte) : Statement (.oraIndX b) := ⟨_, rfl, rfl, rfl, rfl⟩
theorem oraZp (b : Byte) : Statement (.oraZp b) := ⟨_, rfl, rfl, rfl, rfl⟩
theorem oraImm (b : Byte) : Statement (.oraImm b) := ⟨_, rfl, rfl, rfl, rfl⟩
theorem oraAbs (w : Word) : Statement (.oraAbs w) := ⟨_, rfl, rfl, rfl, congrArg Instr.oraAbs (wordOf_bytes w)⟩
theorem oraIndY (b : Byte) : Statement (.oraIndY b) := ⟨_, rfl, rfl, rfl, rfl⟩
theorem oraZpX (b : Byte) : Statement (.oraZpX b) := ⟨_, rfl, rfl, rfl, rfl⟩
theorem oraAbsY (w : Word) : Statement (.oraAbsY w) := ⟨_, rfl, rfl, rfl, congrArg Instr.oraAbsY (wordOf_bytes w)⟩
theorem oraAbsX (w : Word) : Statement (.oraAbsX w) := ⟨_, rfl, rfl, rfl, congrArg Instr.oraAbsX (wordOf_bytes w)⟩
theorem andIndX (b : Byte) : Statement (.andIndX b) := ⟨_, rfl, rfl, rfl, rfl⟩
theorem andZp (b : Byte) : Statement (.andZp b) := ⟨_, rfl, rfl, rfl, rfl⟩
theorem andImm (b : Byte) : Statement (.andImm b) := ⟨_, rfl, rfl, rfl, rfl⟩
theorem andAbs (w : Word) : Statement (.andAbs w) := ⟨_, rfl, rfl, rfl, congrArg Instr.andAbs (wordOf_bytes w)⟩
theorem andIndY (b : Byte) : Statement (.andIndY b) := ⟨_, rfl, rfl, rfl, rfl⟩
theorem andZpX (b : Byte) : Statement (.andZpX b) := ⟨_, rfl, rfl, rfl, rfl⟩
theorem andAbsY (w : Word) : Statement (.andAbsY w) := ⟨_, rfl, rfl, rfl, congrArg Instr.andAbsY (wordOf_bytes w)⟩
theorem andAbsX (w : Word) : Statement (.andAbsX w) := ⟨_, rfl, rfl, rfl, congrArg Instr.andAbsX (wordOf_bytes w)⟩
theorem eorIndX (b : Byte) : Statement (.eorIndX b) := ⟨_, rfl, rfl, rfl, rfl⟩
theorem eorZp (b : Byte) : Statement (.eorZp b) := ⟨_, rfl, rfl, rfl, rfl⟩
theorem eorImm (b : Byte) : Statement (.eorImm b) := ⟨_, rfl, rfl, rfl, rfl⟩
theorem eorAbs (w : Word) : Statement (.eorAbs w) := ⟨_, rfl, rfl, rfl, congrArg Instr.eorAbs (wordOf_bytes w)⟩
theorem eorIndY (b : Byte) : Statement (.eorIndY b) := ⟨_, rfl, rfl, rfl, rfl⟩
theorem eorZpX (b : Byte) : Statement (.eorZpX b) := ⟨_, rfl, rfl, rfl, rfl⟩
theorem eorAbsY (w : Word) : Statement (.eorAbsY w) := ⟨_, rfl, rfl, rfl, congrArg Instr.eorAbsY (wordOf_bytes w)⟩
theorem eorAbsX (w : Word) : Statement (.eorAbsX w) := ⟨_, rfl, rfl, rfl, congrArg Instr.eorAbsX (wordOf_bytes w)⟩
theorem aslZp (b : Byte) : Statement (.aslZp b) := ⟨_, rfl, rfl, rfl, rfl⟩
theorem aslAcc : Statement .aslAcc := ⟨_, rfl, rfl, rfl, rfl⟩
theorem aslAbs (w : Word) : Statement (.aslAbs w) := ⟨_, rfl, rfl, rfl, congrArg Instr.aslAbs (wordOf_bytes w)⟩
theorem aslZpX (b : Byte) : Statement (.aslZpX b) := ⟨_, rfl, rfl, rfl, rfl⟩
theorem aslAbsX (w : Word) : Statement (.aslAbsX w) := ⟨_, rfl, rfl, rfl, congrArg Instr.aslAbsX (wordOf_bytes w)⟩
theorem lsrZp (b : Byte) : Statement (.lsrZp b) := ⟨_, rfl, rfl, rfl, rfl⟩
theorem lsrAcc : Statement .lsrAcc := ⟨_, rfl, rfl, rfl, rfl⟩
theorem lsrAbs (w : Word) : Statement (.lsrAbs w) := ⟨_, rfl, rfl, rfl, congrArg Instr.lsrAbs (wordOf_bytes w)⟩
theorem lsrZpX (b : Byte) : Statement (.lsrZpX b) := ⟨_, rfl, rfl, rfl, rfl⟩
theorem lsrAbsX (w : Word) : Statement (.lsrAbsX w) := ⟨_, rfl, rfl, rfl, congrArg Instr.lsrAbsX (wordOf_bytes w)⟩
theorem rolZp (b : Byte) : Statement (.rolZp b) := ⟨_, rfl, rfl, rfl, rfl⟩
theorem rolAcc : Statement .rolAcc := ⟨_, rfl, rfl, rfl, rfl⟩
theorem rolAbs (w : Word) : Statement (.rolAbs w) := ⟨_, rfl, rfl, rfl, congrArg Instr.rolAbs (wordOf_bytes w)⟩
theorem rolZpX (b : Byte) : Statement (.rolZpX b) := ⟨_, rfl, rfl, rfl, rfl⟩
theorem rolAbsX (w : Word) : Statement (.rolAbsX w) := ⟨_, rfl, rfl, rfl, congrArg Instr.rolAbsX (wordOf_bytes w)⟩
theorem rorZp (b : Byte) : Statement (.rorZp b) := ⟨_, rfl, rfl, rfl, rfl⟩
theorem rorAcc : Statement .rorAcc := ⟨_, rfl, rfl, rfl, rfl⟩
theorem rorAbs (w : Word) : Statement (.rorAbs w) := ⟨_, rfl, rfl, rfl, congrArg Instr.rorAbs (wordOf_bytes w)⟩
theorem rorZpX (b : Byte) : Statement (.rorZpX b) := ⟨_, rfl, rfl, rfl, rfl⟩
theorem rorAbsX (w : Word) : Statement (.rorAbsX w) := ⟨_, rfl, rfl, rfl, congrArg Instr.rorAbsX (wordOf_bytes w)⟩
theorem incZp (b : Byte) : Statement (.incZp b) := ⟨_, rfl, rfl, rfl, rfl⟩
theorem incAbs (w : Word) : Statement (.incAbs w) := ⟨_, rfl, rfl, rfl, congrArg Instr.incAbs (wordOf_bytes w)⟩
theorem incZpX (b : Byte) : Statement (.incZpX b) := ⟨_, rfl, rfl, rfl, rfl⟩
theorem incAbsX (w : Word) : Statement (.incAbsX w) := ⟨_, rfl, rfl, rfl, congrArg Instr.incAbsX (wordOf_bytes w)⟩
theorem decZp (b : Byte) : Statement (.decZp b) := ⟨_, rfl, rfl, rfl, rfl⟩
theorem decAbs (w : Word) : Statement (.decAbs w) := ⟨_, rfl, rfl, rfl, congrArg Instr.decAbs (wordOf_bytes w)⟩
theorem decZpX (b : Byte) : Statement (.decZpX b) := ⟨_, rfl, rfl, rfl, rfl⟩
theorem decAbsX (w : Word) : Statement (.decAbsX w) := ⟨_, rfl, rfl, rfl, congrArg Instr.decAbsX (wordOf_bytes w)⟩
theorem bitZp (b : Byte) : Statement (.bitZp b) := ⟨_, rfl, rfl, rfl, rfl⟩
theorem bitAbs (w : Word) : Statement (.bitAbs w) := ⟨_, rfl, rfl, rfl, congrArg Instr.bitAbs (wordOf_bytes w)⟩
theorem cmpIndX (b : Byte) : Statement (.cmpIndX b) := ⟨_, rfl, rfl, rfl, rfl⟩
theorem cmpZp (b : Byte) : Statement (.cmpZp b) := ⟨_, rfl, rfl, rfl, rfl⟩
theorem cmpImm (b : Byte) : Statement (.cmpImm b) := ⟨_, rfl, rfl, rfl, rfl⟩
theorem cmpAbs (w : Word) : Statement (.cmpAbs w) := ⟨_, rfl, rfl, rfl, congrArg Instr.cmpAbs (wordOf_bytes w)⟩
theorem cmpIndY (b : Byte) : Statement (.cmpIndY b) := ⟨_, rfl, rfl, rfl, rfl⟩
theorem cmpZpX (b : Byte) : Statement (.cmpZpX b) := ⟨_, rfl, rfl, rfl, rfl⟩
theorem cmpAbsY (w : Word) : Statement (.cmpAbsY w) := ⟨_, rfl, rfl, rfl, congrArg Instr.cmpAbsY (wordOf_bytes w)⟩
theorem cmpAbsX (w : Word) : Statement (.cmpAbsX w) := ⟨_, rfl, rfl, rfl, congrArg Instr.cmpAbsX (wordOf_bytes w)⟩
theorem cpxImm (b : Byte) : Statement (.cpxImm b) := ⟨_, rfl, rfl, rfl, rfl⟩
theorem cpxZp (b : Byte) : Statement (.cpxZp b) := ⟨_, rfl, rfl, rfl, rfl⟩
theorem cpxAbs (w : Word) : Statement (.cpxAbs w) := ⟨_, rfl, rfl, rfl, congrArg Instr.cpxAbs (wordOf_bytes w)⟩
theorem cpyImm (b : Byte) : Statement (.cpyImm b) := ⟨_, rfl, rfl, rfl, rfl⟩
theorem cpyZp (b : Byte) : Statement (.cpyZp b) := ⟨_, rfl, rfl, rfl, rfl⟩
theorem cpyAbs (w : Word) : Statement (.cpyAbs w) := ⟨_, rfl, rfl, rfl, congrArg Instr.cpyAbs (wordOf_bytes w)⟩
theorem adcIndX (b : Byte) : Statement (.adcIndX b) := ⟨_, rfl, rfl, rfl, rfl⟩
theorem adcZp (b : Byte) : Statement (.adcZp b) := ⟨_, rfl, rfl, rfl, rfl⟩
theorem adcImm (b : Byte) : Statement (.adcImm b) := ⟨_, rfl, rfl, rfl, rfl⟩
theorem adcAbs (w : Word) : Statement (.adcAbs w) := ⟨_, rfl, rfl, rfl, congrArg Instr.adcAbs (wordOf_bytes w)⟩
theorem adcIndY (b : Byte) : Statement (.adcIndY b) := ⟨_, rfl, rfl, rfl, rfl⟩
theorem adcZpX (b : Byte) : Statement (.adcZpX b) := ⟨_, rfl, rfl, rfl, rfl⟩
theorem adcAbsY (w : Word) : Statement (.adcAbsY w) := ⟨_, rfl, rfl, rfl, congrArg Instr.adcAbsY (wordOf_bytes w)⟩
theorem adcAbsX (w : Word) : Statement (.adcAbsX w) := ⟨_, rfl, rfl, rfl, congrArg Instr.adcAbsX (wordOf_bytes w)⟩
theorem sbcIndX (b : Byte) : Statement (.sbcIndX b) := ⟨_, rfl, rfl, rfl, rfl⟩
theorem sbcZp (b : Byte) : Statement (.sbcZp b) := ⟨_, rfl, rfl, rfl, rfl⟩
theorem sbcImm (b : Byte) : Statement (.sbcImm b) := ⟨_, rfl, rfl, rfl, rfl⟩
theorem sbcAbs (w : Word) : Statement (.sbcAbs w) := ⟨_, rfl, rfl, rfl, congrArg Instr.sbcAbs (wordOf_bytes w)⟩
theorem sbcIndY (b : Byte) : Statement (.sbcIndY b) := ⟨_, rfl, rfl, rfl, rfl⟩
theorem sbcZpX (b : Byte) : Statement (.sbcZpX b) := ⟨_, rfl, rfl, rfl, rfl⟩
theorem sbcAbsY (w : Word) : Statement (.sbcAbsY w) := ⟨_, rfl, rfl, rfl, congrArg Instr.sbcAbsY (wordOf_bytes w)⟩
theorem sbcAbsX (w : Word) : Statement (.sbcAbsX w) := ⟨_, rfl, rfl, rfl, congrArg Instr.sbcAbsX (wordOf_bytes w)⟩
theorem pha : Statement .pha := ⟨_, rfl, rfl, rfl, rfl⟩
theorem pla : Statement .pla := ⟨_, rfl, rfl, rfl, rfl⟩
theorem php : Statement .php := ⟨_, rfl, rfl, rfl, rfl⟩
theorem plp : Statement .plp := ⟨_, rfl, rfl, rfl, rfl⟩
theorem jsr (w : Word) : Statement (.jsr w) := ⟨_, rfl, rfl, rfl, congrArg Instr.jsr (wordOf_bytes w)⟩
theorem rts : Statement .rts := ⟨_, rfl, rfl, rfl, rfl⟩
theorem brk : Statement .brk := ⟨_, rfl, rfl, rfl, rfl⟩
theorem rti : Statement .rti := ⟨_, rfl, rfl, rfl, rfl⟩
theorem bpl (b : Byte) : Statement (.bpl b) := ⟨_, rfl, rfl, rfl, rfl⟩
theorem bmi (b : Byte) : Statement (.bmi b) := ⟨_, rfl, rfl, rfl, rfl⟩
theorem bvc (b : Byte) : Statement (.bvc b) := ⟨_, rfl, rfl, rfl, rfl⟩
theorem bvs (b : Byte) : Statement (.bvs b) := ⟨_, rfl, rfl, rfl, rfl⟩
theorem bcc (b : Byte) : Statement (.bcc b) := ⟨_, rfl, rfl, rfl, rfl⟩
theorem bcs (b : Byte) : Statement (.bcs b) := ⟨_, rfl, rfl, rfl, rfl⟩
theorem bne (b : Byte) : Statement (.bne b) := ⟨_, rfl, rfl, rfl, rfl⟩
theorem beq (b : Byte) : Statement (.beq b) := ⟨_, rfl, rfl, rfl, rfl⟩
theorem jmpAbs (w : Word) : Statement (.jmpAbs w) := ⟨_, rfl, rfl, rfl, congrArg Instr.jmpAbs (wordOf_bytes w)⟩
theorem jmpInd (w : Word) : Statement (.jmpInd w) := ⟨_, rfl, rfl, rfl, congrArg Instr.jmpInd (wordOf_bytes w)⟩
theorem tax : Statement .tax := ⟨_, rfl, rfl, rfl, rfl⟩
theorem txa : Statement .txa := ⟨_, rfl, rfl, rfl, rfl⟩
theorem tay : Statement .tay := ⟨_, rfl, rfl, rfl, rfl⟩
theorem tya : Statement .tya := ⟨_, rfl, rfl, rfl, rfl⟩
theorem tsx : Statement .tsx := ⟨_, rfl, rfl, rfl, rfl⟩
theorem txs : Statement .txs := ⟨_, rfl, rfl, rfl, rfl⟩
theorem inx : Statement .inx := ⟨_, rfl, rfl, rfl, rfl⟩
theorem iny : Statement .iny := ⟨_, rfl, rfl, rfl, rfl⟩
theorem dex : Statement .dex := ⟨_, rfl, rfl, rfl, rfl⟩
theorem dey : Statement .dey := ⟨_, rfl, rfl, rfl, rfl⟩
theorem ldaIndX (b : Byte) : Statement (.ldaIndX b) := ⟨_, rfl, rfl, rfl, rfl⟩
theorem ldaZp (b : Byte) : Statement (.ldaZp b) := ⟨_, rfl, rfl, rfl, rfl⟩
theorem ldaImm (b : Byte) : Statement (.ldaImm b) := ⟨_, rfl, rfl, rfl, rfl⟩
theorem ldaAbs (w : Word) : Statement (.ldaAbs w) := ⟨_, rfl, rfl, rfl, congrArg Instr.ldaAbs (wordOf_bytes w)⟩
theorem ldaIndY (b : Byte) : Statement (.ldaIndY b) := ⟨_, rfl, rfl, rfl, rfl⟩
theorem ldaZpX (b : Byte) : Statement (.ldaZpX b) := ⟨_, rfl, rfl, rfl, rfl⟩
theorem ldaAbsY (w : Word) : Statement (.ldaAbsY w) := ⟨_, rfl, rfl, rfl, congrArg Instr.ldaAbsY (wordOf_bytes w)⟩
theorem ldaAbsX (w : Word) : Statement (.ldaAbsX w) := ⟨_, rfl, rfl, rfl, congrArg Instr.ldaAbsX (wordOf_bytes w)⟩
theorem ldxImm (b : Byte) : Statement (.ldxImm b) := ⟨_, rfl, rfl, rfl, rfl⟩
theorem ldxZp (b : Byte) : Statement (.ldxZp b) := ⟨_, rfl, rfl, rfl, rfl⟩
theorem ldxAbs (w : Word) : Statement (.ldxAbs w) := ⟨_, rfl, rfl, rfl, congrArg Instr.ldxAbs (wordOf_bytes w)⟩
theorem ldxZpY (b : Byte) : Statement (.ldxZpY b) := ⟨_, rfl, rfl, rfl, rfl⟩
theorem ldxAbsY (w : Word) : Statement (.ldxAbsY w) := ⟨_, rfl, rfl, rfl, congrArg Instr.ldxAbsY (wordOf_bytes w)⟩
theorem ldyImm (b : Byte) : Statement (.ldyImm b) := ⟨_, rfl, rfl, rfl, rfl⟩
theorem ldyZp (b : Byte) : Statement (.ldyZp b) := ⟨_, rfl, rfl, rfl, rfl⟩
theorem ldyAbs (w : Word) : Statement (.ldyAbs w) := ⟨_, rfl, rfl, rfl, congrArg Instr.ldyAbs (wordOf_bytes w)⟩
theorem ldyZpX (b : Byte) : Statement (.ldyZpX b) := ⟨_, rfl, rfl, rfl, rfl⟩
theorem ldyAbsX (w : Word) : Statement (.ldyAbsX w) := ⟨_, rfl, rfl, rfl, congrArg Instr.ldyAbsX (wordOf_bytes w)⟩
theorem staIndX (b : Byte) : Statement (.staIndX b) := ⟨_, rfl, rfl, rfl, rfl⟩
theorem staZp (b : Byte) : Statement (.staZp b) := ⟨_, rfl, rfl, rfl, rfl⟩
theorem staAbs (w : Word) : Statement (.staAbs w) := ⟨_, rfl, rfl, rfl, congrArg Instr.staAbs (wordOf_bytes w)⟩
theorem staIndY (b : Byte) : Statement (.staIndY b) := ⟨_, rfl, rfl, rfl, rfl⟩
theorem staZpX (b : Byte) : Statement (.staZpX b) := ⟨_, rfl, rfl, rfl, rfl⟩
theorem staAbsY (w : Word) : Statement (.staAbsY w) := ⟨_, rfl, rfl, rfl, congrArg Instr.staAbsY (wordOf_bytes w)⟩
theorem staAbsX (w : Word) : Statement (.staAbsX w) := ⟨_, rfl, rfl, rfl, congrArg Instr.staAbsX (wordOf_bytes w)⟩
theorem stxZp (b : Byte) : Statement (.stxZp b) := ⟨_, rfl, rfl, rfl, rfl⟩
theorem stxAbs (w : Word) : Statement (.stxAbs w) := ⟨_, rfl, rfl, rfl, congrArg Instr.stxAbs (wordOf_bytes w)⟩
theorem stxZpY (b : Byte) : Statement (.stxZpY b) := ⟨_, rfl, rfl, rfl, rfl⟩
theorem styZp (b : Byte) : Statement (.styZp b) := ⟨_, rfl, rfl, rfl, rfl⟩
theorem styAbs (w : Word) : Statement (.styAbs w) := ⟨_, rfl, rfl, rfl, congrArg Instr.styAbs (wordOf_bytes w)⟩
theorem styZpX (b : Byte) : Statement (.styZpX b) := ⟨_, rfl, rfl, rfl, rfl⟩
theorem clc : Statement .clc := ⟨_, rfl, rfl, rfl, rfl⟩
theorem sec : Statement .sec := ⟨_, rfl, rfl, rfl, rfl⟩
theorem cli : Statement .cli := ⟨_, rfl, rfl, rfl, rfl⟩
theorem sei : Statement .sei := ⟨_, rfl, rfl, rfl, rfl⟩
theorem clv : Statement .clv := ⟨_, rfl, rfl, rfl, rfl⟩
theorem cld : Statement .cld := ⟨_, rfl, rfl, rfl, rfl⟩
theorem sed : Statement .sed := ⟨_, rfl, rfl, rfl, rfl⟩
theorem nop : Statement .nop := ⟨_, rfl, rfl, rfl, rfl⟩

end Sys2Proof.Laws.TableEntry
end

