-- ==== Sys2Proof/Machine/Assembly.lean ====
section
/-! DEFINITION. The assembler syntax of spec/30_encoding.md R98: how an instruction is written. No step uses it. -/

namespace Sys2Proof.Machine

/-- The four low bits of a number as a hexadecimal digit. -/
def hexDigit (n : Nat) : String :=
  (["0", "1", "2", "3", "4", "5", "6", "7", "8", "9", "A", "B", "C", "D", "E", "F"].getD (n % 16) "0")

/-- A byte as `$nn` (R98). -/
def hexByte (b : Byte) : String := "$" ++ hexDigit (b.toNat / 16) ++ hexDigit b.toNat

/-- A word as `$nnnn` (R98). -/
def hexWord (w : Word) : String :=
  "$" ++ hexDigit (w.toNat / 4096) ++ hexDigit (w.toNat / 256) ++ hexDigit (w.toNat / 16) ++ hexDigit w.toNat

/-- The three letters of a mnemonic. -/
def mnemonicText : Mnemonic → String
  | .ora => "ORA" | .and => "AND" | .eor => "EOR" | .asl => "ASL" | .lsr => "LSR" | .rol => "ROL" | .ror => "ROR"
  | .inc => "INC" | .dec => "DEC" | .bit => "BIT" | .cmp => "CMP" | .cpx => "CPX" | .cpy => "CPY" | .adc => "ADC"
  | .sbc => "SBC" | .pha => "PHA" | .pla => "PLA" | .php => "PHP" | .plp => "PLP" | .jsr => "JSR" | .rts => "RTS"
  | .brk => "BRK" | .rti => "RTI" | .bpl => "BPL" | .bmi => "BMI" | .bvc => "BVC" | .bvs => "BVS" | .bcc => "BCC"
  | .bcs => "BCS" | .bne => "BNE" | .beq => "BEQ" | .jmp => "JMP" | .tax => "TAX" | .txa => "TXA" | .tay => "TAY"
  | .tya => "TYA" | .tsx => "TSX" | .txs => "TXS" | .inx => "INX" | .iny => "INY" | .dex => "DEX" | .dey => "DEY"
  | .lda => "LDA" | .ldx => "LDX" | .ldy => "LDY" | .sta => "STA" | .stx => "STX" | .sty => "STY" | .clc => "CLC"
  | .sec => "SEC" | .cli => "CLI" | .sei => "SEI" | .clv => "CLV" | .cld => "CLD" | .sed => "SED" | .nop => "NOP"

/-- An operand (R98); a branch is written with its target, which the address `o` of its opcode byte fixes (R91). -/
def eaText (o : Word) : Ea → String
  | .zp b => hexByte b
  | .zpX b => hexByte b ++ ",X"
  | .zpY b => hexByte b ++ ",Y"
  | .abs w => hexWord w
  | .absX w => hexWord w ++ ",X"
  | .absY w => hexWord w ++ ",Y"
  | .indX b => "(" ++ hexByte b ++ ",X)"
  | .indY b => "(" ++ hexByte b ++ "),Y"
  | .ind w => "(" ++ hexWord w ++ ")"
  | .rel b => hexWord (o + 2 + BitVec.ofInt 16 (sext8 b))

/-- An assembly form standing at the address `o`: the mnemonic, then the operand if there is one (R98). -/
def formText (o : Word) (f : Form) : String :=
  mnemonicText f.mnemonic ++
    match f.operand with
    | .imm b => " #" ++ hexByte b
    | .mem e => " " ++ eaText o e
    | .acc => " A"
    | .implied => ""

end Sys2Proof.Machine
end

