-- ==== Sys2Proof/Tests/Slice0.lean ====
section
/-! SUPPORT. The model's own tests. Expected values come from the "Encoding" lines of the rules, from the vectors of
spec/95_test_vectors.md (each named in its comment) and, for the witnesses, from the statements' hypotheses. -/

namespace Sys2Proof.Tests

open Sys2Proof Sys2Proof.Machine

/-! ### Well-formedness: forms that the rules' "Operands" lines do not give are refused -/

/-- STA # (R213, R96), STX abs,Y (R214, R96), STY zp,Y, INC A (R117), BIT # (R119), CPX zp,X (R132). -/
theorem test_illFormed_memory :
    [(⟨.sta, .imm 5⟩ : Form), ⟨.stx, .mem (.absY 0x1234)⟩, ⟨.sty, .mem (.zpY 0)⟩, ⟨.inc, .acc⟩, ⟨.bit, .imm 0⟩,
      ⟨.cpx, .mem (.zpX 0)⟩].all (fun f => !f.wellFormed) = true := by
  decide

/-- JMP zp (R189), JSR (abs) (R164), BNE abs (R187), NOP # (R223), PHA A (R160), ROL without an operand (R115),
LDX zp,X (R211), LDA (abs) (R210). -/
theorem test_illFormed_other :
    [(⟨.jmp, .mem (.zp 0)⟩ : Form), ⟨.jsr, .mem (.ind 0)⟩, ⟨.bne, .mem (.abs 0)⟩, ⟨.nop, .imm 0⟩, ⟨.pha, .acc⟩,
      ⟨.rol, .implied⟩, ⟨.ldx, .mem (.zpX 0)⟩, ⟨.lda, .mem (.ind 0)⟩].all (fun f => !f.wellFormed) = true := by
  decide

/-- Forms that they do give. -/
theorem test_wellFormed :
    [(⟨.sta, .mem (.indY 5)⟩ : Form), ⟨.stx, .mem (.zpY 0)⟩, ⟨.rol, .acc⟩, ⟨.jmp, .mem (.ind 0)⟩, ⟨.bne, .mem (.rel 0)⟩,
      ⟨.brk, .implied⟩].all (fun f => f.wellFormed) = true := by
  decide

/-! ### Decoding: every row by the bytes of its rule's "Encoding" line -/

/-- Each byte sequence decodes to its instruction, with no byte left. -/
def allDecode (rows : List (List Byte × Instr)) : Bool :=
  rows.all (fun q => decode q.1 = .ok (q.2, []))

/-- One instruction of every family bit by bit, opcode byte first (R111, R131, R144, R164, R187, R189, R199, R214, R222). -/
theorem test_decode_bit_by_bit : allDecode [
    ([0b00110001, 0b10000001], .andIndY 0b10000001), ([0b11000101, 0b00000001], .cmpZp 0b00000001),
    ([0b11111001, 0b00000001, 0b10000000], .sbcAbsY 0b1000000000000001),
    ([0b00100000, 0b11111110, 0b00000000], .jsr 0b0000000011111110), ([0b11010000, 0b10000000], .bne 0b10000000),
    ([0b01101100, 0b11111111, 0b00010000], .jmpInd 0b0001000011111111), ([0b10001000], .dey),
    ([0b10010110, 0b01000000], .stxZpY 0b01000000), ([0b11111000], .sed)
    ] = true := by decide

/-- Bytes that end too early, the first and the last illegal byte, and bytes left over (R80, R97). -/
theorem test_decode_refusals :
    decode [] = .error .truncated ∧ decode [0xA9] = .error .truncated ∧ decode [0x4C, 0x00] = .error .truncated ∧
      decode [0x02] = .error (.illegalOpcode 0x02) ∧ decode [0xFF, 0x00] = .error (.illegalOpcode 0xFF) ∧
      decode [0xEA, 0x02] = .ok (.nop, [0x02]) := by
  decide

theorem test_decode_logical_1 : allDecode [
    ([0x09, 0x9C], .oraImm 0x9C), ([0x05, 0x9C], .oraZp 0x9C), ([0x15, 0x9C], .oraZpX 0x9C),
    ([0x0D, 0x34, 0x12], .oraAbs 0x1234), ([0x1D, 0x34, 0x12], .oraAbsX 0x1234),
    ([0x19, 0x34, 0x12], .oraAbsY 0x1234), ([0x01, 0x9C], .oraIndX 0x9C), ([0x11, 0x9C], .oraIndY 0x9C),
    ([0x29, 0x9C], .andImm 0x9C), ([0x25, 0x9C], .andZp 0x9C), ([0x35, 0x9C], .andZpX 0x9C),
    ([0x2D, 0x34, 0x12], .andAbs 0x1234), ([0x3D, 0x34, 0x12], .andAbsX 0x1234),
    ([0x39, 0x34, 0x12], .andAbsY 0x1234), ([0x21, 0x9C], .andIndX 0x9C), ([0x31, 0x9C], .andIndY 0x9C)
    ] = true := by decide

theorem test_decode_logical_2 : allDecode [
    ([0x49, 0x9C], .eorImm 0x9C), ([0x45, 0x9C], .eorZp 0x9C), ([0x55, 0x9C], .eorZpX 0x9C),
    ([0x4D, 0x34, 0x12], .eorAbs 0x1234), ([0x5D, 0x34, 0x12], .eorAbsX 0x1234),
    ([0x59, 0x34, 0x12], .eorAbsY 0x1234), ([0x41, 0x9C], .eorIndX 0x9C), ([0x51, 0x9C], .eorIndY 0x9C),
    ([0x0A], .aslAcc), ([0x06, 0x9C], .aslZp 0x9C), ([0x16, 0x9C], .aslZpX 0x9C),
    ([0x0E, 0x34, 0x12], .aslAbs 0x1234), ([0x1E, 0x34, 0x12], .aslAbsX 0x1234), ([0x4A], .lsrAcc),
    ([0x46, 0x9C], .lsrZp 0x9C), ([0x56, 0x9C], .lsrZpX 0x9C)
    ] = true := by decide

theorem test_decode_logical_3 : allDecode [
    ([0x4E, 0x34, 0x12], .lsrAbs 0x1234), ([0x5E, 0x34, 0x12], .lsrAbsX 0x1234), ([0x2A], .rolAcc),
    ([0x26, 0x9C], .rolZp 0x9C), ([0x36, 0x9C], .rolZpX 0x9C), ([0x2E, 0x34, 0x12], .rolAbs 0x1234),
    ([0x3E, 0x34, 0x12], .rolAbsX 0x1234), ([0x6A], .rorAcc), ([0x66, 0x9C], .rorZp 0x9C),
    ([0x76, 0x9C], .rorZpX 0x9C), ([0x6E, 0x34, 0x12], .rorAbs 0x1234), ([0x7E, 0x34, 0x12], .rorAbsX 0x1234),
    ([0xE6, 0x9C], .incZp 0x9C), ([0xF6, 0x9C], .incZpX 0x9C), ([0xEE, 0x34, 0x12], .incAbs 0x1234),
    ([0xFE, 0x34, 0x12], .incAbsX 0x1234)
    ] = true := by decide

theorem test_decode_logical_4 : allDecode [
    ([0xC6, 0x9C], .decZp 0x9C), ([0xD6, 0x9C], .decZpX 0x9C), ([0xCE, 0x34, 0x12], .decAbs 0x1234),
    ([0xDE, 0x34, 0x12], .decAbsX 0x1234), ([0x24, 0x9C], .bitZp 0x9C), ([0x2C, 0x34, 0x12], .bitAbs 0x1234)
    ] = true := by decide

theorem test_decode_compare : allDecode [
    ([0xC9, 0x9C], .cmpImm 0x9C), ([0xC5, 0x9C], .cmpZp 0x9C), ([0xD5, 0x9C], .cmpZpX 0x9C),
    ([0xCD, 0x34, 0x12], .cmpAbs 0x1234), ([0xDD, 0x34, 0x12], .cmpAbsX 0x1234),
    ([0xD9, 0x34, 0x12], .cmpAbsY 0x1234), ([0xC1, 0x9C], .cmpIndX 0x9C), ([0xD1, 0x9C], .cmpIndY 0x9C),
    ([0xE0, 0x9C], .cpxImm 0x9C), ([0xE4, 0x9C], .cpxZp 0x9C), ([0xEC, 0x34, 0x12], .cpxAbs 0x1234),
    ([0xC0, 0x9C], .cpyImm 0x9C), ([0xC4, 0x9C], .cpyZp 0x9C), ([0xCC, 0x34, 0x12], .cpyAbs 0x1234)
    ] = true := by decide

theorem test_decode_arith : allDecode [
    ([0x69, 0x9C], .adcImm 0x9C), ([0x65, 0x9C], .adcZp 0x9C), ([0x75, 0x9C], .adcZpX 0x9C),
    ([0x6D, 0x34, 0x12], .adcAbs 0x1234), ([0x7D, 0x34, 0x12], .adcAbsX 0x1234),
    ([0x79, 0x34, 0x12], .adcAbsY 0x1234), ([0x61, 0x9C], .adcIndX 0x9C), ([0x71, 0x9C], .adcIndY 0x9C),
    ([0xE9, 0x9C], .sbcImm 0x9C), ([0xE5, 0x9C], .sbcZp 0x9C), ([0xF5, 0x9C], .sbcZpX 0x9C),
    ([0xED, 0x34, 0x12], .sbcAbs 0x1234), ([0xFD, 0x34, 0x12], .sbcAbsX 0x1234),
    ([0xF9, 0x34, 0x12], .sbcAbsY 0x1234), ([0xE1, 0x9C], .sbcIndX 0x9C), ([0xF1, 0x9C], .sbcIndY 0x9C)
    ] = true := by decide

theorem test_decode_stack : allDecode [
    ([0x48], .pha), ([0x68], .pla), ([0x08], .php), ([0x28], .plp), ([0x20, 0x34, 0x12], .jsr 0x1234),
    ([0x60], .rts), ([0x00], .brk), ([0x40], .rti)
    ] = true := by decide

theorem test_decode_branch : allDecode [
    ([0x10, 0x9C], .bpl 0x9C), ([0x30, 0x9C], .bmi 0x9C), ([0x50, 0x9C], .bvc 0x9C), ([0x70, 0x9C], .bvs 0x9C),
    ([0x90, 0x9C], .bcc 0x9C), ([0xB0, 0x9C], .bcs 0x9C), ([0xD0, 0x9C], .bne 0x9C), ([0xF0, 0x9C], .beq 0x9C),
    ([0x4C, 0x34, 0x12], .jmpAbs 0x1234), ([0x6C, 0x34, 0x12], .jmpInd 0x1234)
    ] = true := by decide

theorem test_decode_transfer : allDecode [
    ([0xAA], .tax), ([0x8A], .txa), ([0xA8], .tay), ([0x98], .tya), ([0xBA], .tsx), ([0x9A], .txs), ([0xE8], .inx),
    ([0xC8], .iny), ([0xCA], .dex), ([0x88], .dey)
    ] = true := by decide

theorem test_decode_loadstore_1 : allDecode [
    ([0xA9, 0x9C], .ldaImm 0x9C), ([0xA5, 0x9C], .ldaZp 0x9C), ([0xB5, 0x9C], .ldaZpX 0x9C),
    ([0xAD, 0x34, 0x12], .ldaAbs 0x1234), ([0xBD, 0x34, 0x12], .ldaAbsX 0x1234),
    ([0xB9, 0x34, 0x12], .ldaAbsY 0x1234), ([0xA1, 0x9C], .ldaIndX 0x9C), ([0xB1, 0x9C], .ldaIndY 0x9C),
    ([0xA2, 0x9C], .ldxImm 0x9C), ([0xA6, 0x9C], .ldxZp 0x9C), ([0xB6, 0x9C], .ldxZpY 0x9C),
    ([0xAE, 0x34, 0x12], .ldxAbs 0x1234), ([0xBE, 0x34, 0x12], .ldxAbsY 0x1234), ([0xA0, 0x9C], .ldyImm 0x9C),
    ([0xA4, 0x9C], .ldyZp 0x9C), ([0xB4, 0x9C], .ldyZpX 0x9C)
    ] = true := by decide

theorem test_decode_loadstore_2 : allDecode [
    ([0xAC, 0x34, 0x12], .ldyAbs 0x1234), ([0xBC, 0x34, 0x12], .ldyAbsX 0x1234), ([0x85, 0x9C], .staZp 0x9C),
    ([0x95, 0x9C], .staZpX 0x9C), ([0x8D, 0x34, 0x12], .staAbs 0x1234), ([0x9D, 0x34, 0x12], .staAbsX 0x1234),
    ([0x99, 0x34, 0x12], .staAbsY 0x1234), ([0x81, 0x9C], .staIndX 0x9C), ([0x91, 0x9C], .staIndY 0x9C),
    ([0x86, 0x9C], .stxZp 0x9C), ([0x96, 0x9C], .stxZpY 0x9C), ([0x8E, 0x34, 0x12], .stxAbs 0x1234),
    ([0x84, 0x9C], .styZp 0x9C), ([0x94, 0x9C], .styZpX 0x9C), ([0x8C, 0x34, 0x12], .styAbs 0x1234), ([0x18], .clc)
    ] = true := by decide

theorem test_decode_loadstore_3 : allDecode [
    ([0x38], .sec), ([0x58], .cli), ([0x78], .sei), ([0xB8], .clv), ([0xD8], .cld), ([0xF8], .sed), ([0xEA], .nop)
    ] = true := by decide

/-! ### Vectors of spec/95_test_vectors.md: one step each -/

/-- The conventions' start state: a running call of one cycle, the bytes at `pc`, the listed cells, all else 0x00. -/
def startAt (w : Regs) (bytes : List Byte) (cells : List (Word × Byte)) : State :=
  placeBytes w.pc bytes { State.reset with
    memory := Memory.pokeAll [] cells, record := w, work := w, budget := 1, tickBudget := 1, phase := .running 1 }

/-- One step from the start state leads to the end state: these registers, these changed cells and no others, and this
cost. -/
def vector (bytes : List Byte) (rom : Fin 65537) (w : Regs) (cells : List (Word × Byte)) (w' : Regs)
    (cells' : List (Word × Byte)) (cost : Int) : Bool :=
  let st := { startAt w bytes cells with romBoundary := rom }
  match step st with
  | .next t => t = { st with work := w', memory := Memory.pokeAll st.memory cells', budget := 1 - cost }
  | .fault _ | .refused _ => false

/-- V-LOG-1 -/
theorem test_oraImm :
    vector [0x09, 0x00] 65536 ⟨0x0200, 0x00, 0x00, 0x00, 0xFF, 0x20⟩ []
      ⟨0x0202, 0x00, 0x00, 0x00, 0xFF, 0x22⟩ [] 2 = true := by
  decide

/-- V-LOG-2 -/
theorem test_oraZp :
    vector [0x05, 0x10] 65536 ⟨0x0200, 0x01, 0x00, 0x00, 0xFF, 0x20⟩ [(0x0010, 0x80)]
      ⟨0x0202, 0x81, 0x00, 0x00, 0xFF, 0xA0⟩ [] 3 = true := by
  decide

/-- V-LOG-3 -/
theorem test_andImm :
    vector [0x29, 0x0F] 65536 ⟨0x0200, 0xF0, 0x00, 0x00, 0xFF, 0x20⟩ []
      ⟨0x0202, 0x00, 0x00, 0x00, 0xFF, 0x22⟩ [] 2 = true := by
  decide

/-- V-LOG-4 -/
theorem test_eorImm :
    vector [0x49, 0xFF] 65536 ⟨0x0200, 0xFF, 0x00, 0x00, 0xFF, 0xA1⟩ []
      ⟨0x0202, 0x00, 0x00, 0x00, 0xFF, 0x23⟩ [] 2 = true := by
  decide

/-- V-LOG-5 -/
theorem test_aslAcc :
    vector [0x0A] 65536 ⟨0x0200, 0x81, 0x00, 0x00, 0xFF, 0x20⟩ []
      ⟨0x0201, 0x02, 0x00, 0x00, 0xFF, 0x21⟩ [] 2 = true := by
  decide

/-- V-LOG-6 -/
theorem test_aslZp :
    vector [0x06, 0x10] 65536 ⟨0x0200, 0x00, 0x00, 0x00, 0xFF, 0x20⟩ [(0x0010, 0x80)]
      ⟨0x0202, 0x00, 0x00, 0x00, 0xFF, 0x23⟩ [(0x0010, 0x00)] 5 = true := by
  decide

/-- V-LOG-7 -/
theorem test_lsrAcc :
    vector [0x4A] 65536 ⟨0x0200, 0x01, 0x00, 0x00, 0xFF, 0xA0⟩ []
      ⟨0x0201, 0x00, 0x00, 0x00, 0xFF, 0x23⟩ [] 2 = true := by
  decide

/-- V-LOG-8 -/
theorem test_rolAcc :
    vector [0x2A] 65536 ⟨0x0200, 0x80, 0x00, 0x00, 0xFF, 0x21⟩ []
      ⟨0x0201, 0x01, 0x00, 0x00, 0xFF, 0x21⟩ [] 2 = true := by
  decide

/-- V-LOG-9 -/
theorem test_rorAcc :
    vector [0x6A] 65536 ⟨0x0200, 0x01, 0x00, 0x00, 0xFF, 0x21⟩ []
      ⟨0x0201, 0x80, 0x00, 0x00, 0xFF, 0xA1⟩ [] 2 = true := by
  decide

/-- V-LOG-10 -/
theorem test_rorAbsX :
    vector [0x7E, 0x00, 0x30] 65536 ⟨0x0200, 0x00, 0x05, 0x00, 0xFF, 0x20⟩ [(0x3005, 0x03)]
      ⟨0x0203, 0x00, 0x05, 0x00, 0xFF, 0x21⟩ [(0x3005, 0x01)] 7 = true := by
  decide

/-- V-LOG-11 -/
theorem test_incZp :
    vector [0xE6, 0x10] 65536 ⟨0x0200, 0x00, 0x00, 0x00, 0xFF, 0x20⟩ [(0x0010, 0xFF)]
      ⟨0x0202, 0x00, 0x00, 0x00, 0xFF, 0x22⟩ [(0x0010, 0x00)] 5 = true := by
  decide

/-- V-LOG-12 -/
theorem test_decAbs :
    vector [0xCE, 0x34, 0x12] 65536 ⟨0x0200, 0x00, 0x00, 0x00, 0xFF, 0x20⟩ [(0x1234, 0x00)]
      ⟨0x0203, 0x00, 0x00, 0x00, 0xFF, 0xA0⟩ [(0x1234, 0xFF)] 6 = true := by
  decide

/-- V-LOG-13 -/
theorem test_incZpX :
    vector [0xF6, 0xF0] 0x0010 ⟨0x0200, 0x00, 0x20, 0x00, 0xFF, 0x20⟩ [(0x0010, 0x7F)]
      ⟨0x0202, 0x00, 0x20, 0x00, 0xFF, 0xA0⟩ [] 6 = true := by
  decide

/-- V-LOG-14 -/
theorem test_bitZp :
    vector [0x24, 0x10] 65536 ⟨0x0200, 0x01, 0x00, 0x00, 0xFF, 0x20⟩ [(0x0010, 0xC0)]
      ⟨0x0202, 0x01, 0x00, 0x00, 0xFF, 0xE2⟩ [] 3 = true := by
  decide

/-- V-LOG-15 -/
theorem test_bitAbs :
    vector [0x2C, 0x00, 0x40] 65536 ⟨0x0200, 0x0F, 0x00, 0x00, 0xFF, 0xE0⟩ [(0x4000, 0x01)]
      ⟨0x0203, 0x0F, 0x00, 0x00, 0xFF, 0x20⟩ [] 4 = true := by
  decide

/-- V-CMP-1, V-CMP-2, V-CMP-3, V-CMP-4, V-CMP-5, V-CMP-8 -/
theorem test_cmpImm :
    (vector [0xC9, 0x40] 65536 ⟨0x0200, 0x40, 0x00, 0x00, 0xFF, 0x20⟩ []
      ⟨0x0202, 0x40, 0x00, 0x00, 0xFF, 0x23⟩ [] 2 &&
    vector [0xC9, 0x41] 65536 ⟨0x0200, 0x40, 0x00, 0x00, 0xFF, 0x20⟩ [] ⟨0x0202, 0x40, 0x00, 0x00, 0xFF, 0xA0⟩ [] 2 &&
    vector [0xC9, 0x01] 65536 ⟨0x0200, 0x80, 0x00, 0x00, 0xFF, 0x20⟩ [] ⟨0x0202, 0x80, 0x00, 0x00, 0xFF, 0x21⟩ [] 2 &&
    vector [0xC9, 0xFF] 65536 ⟨0x0200, 0x00, 0x00, 0x00, 0xFF, 0x20⟩ [] ⟨0x0202, 0x00, 0x00, 0x00, 0xFF, 0x20⟩ [] 2 &&
    vector [0xC9, 0x00] 65536 ⟨0x0200, 0xFF, 0x00, 0x00, 0xFF, 0x20⟩ [] ⟨0x0202, 0xFF, 0x00, 0x00, 0xFF, 0xA1⟩ [] 2 &&
    vector [0xC9, 0x01] 65536 ⟨0x0200, 0x02, 0x00, 0x00, 0xFF, 0x60⟩ []
      ⟨0x0202, 0x02, 0x00, 0x00, 0xFF, 0x61⟩ [] 2) = true := by
  decide

/-- V-CMP-6 -/
theorem test_cpxZp :
    vector [0xE4, 0x10] 65536 ⟨0x0200, 0x00, 0x05, 0x00, 0xFF, 0x20⟩ [(0x0010, 0x05)]
      ⟨0x0202, 0x00, 0x05, 0x00, 0xFF, 0x23⟩ [] 3 = true := by
  decide

/-- V-CMP-7 -/
theorem test_cpyAbs :
    vector [0xCC, 0x00, 0x30] 65536 ⟨0x0200, 0x00, 0x00, 0x10, 0xFF, 0x28⟩ [(0x3000, 0x20)]
      ⟨0x0203, 0x00, 0x00, 0x10, 0xFF, 0xA8⟩ [] 4 = true := by
  decide

/-- V-ARI-1, V-ARI-2, V-ARI-3, V-ARI-4 -/
theorem test_adcImmBinary :
    (vector [0x69, 0x01] 65536 ⟨0x0200, 0x7F, 0x00, 0x00, 0xFF, 0x20⟩ []
      ⟨0x0202, 0x80, 0x00, 0x00, 0xFF, 0xE0⟩ [] 2 &&
    vector [0x69, 0x01] 65536 ⟨0x0200, 0xFF, 0x00, 0x00, 0xFF, 0x20⟩ [] ⟨0x0202, 0x00, 0x00, 0x00, 0xFF, 0x23⟩ [] 2 &&
    vector [0x69, 0x80] 65536 ⟨0x0200, 0x80, 0x00, 0x00, 0xFF, 0x20⟩ [] ⟨0x0202, 0x00, 0x00, 0x00, 0xFF, 0x63⟩ [] 2 &&
    vector [0x69, 0x20] 65536 ⟨0x0200, 0x10, 0x00, 0x00, 0xFF, 0x21⟩ []
      ⟨0x0202, 0x31, 0x00, 0x00, 0xFF, 0x20⟩ [] 2) = true := by
  decide

/-- V-ARI-5, V-ARI-6, V-ARI-7, V-ARI-8 -/
theorem test_sbcImmBinary :
    (vector [0xE9, 0x01] 65536 ⟨0x0200, 0x00, 0x00, 0x00, 0xFF, 0x21⟩ []
      ⟨0x0202, 0xFF, 0x00, 0x00, 0xFF, 0xA0⟩ [] 2 &&
    vector [0xE9, 0x01] 65536 ⟨0x0200, 0x80, 0x00, 0x00, 0xFF, 0x21⟩ [] ⟨0x0202, 0x7F, 0x00, 0x00, 0xFF, 0x61⟩ [] 2 &&
    vector [0xE9, 0x05] 65536 ⟨0x0200, 0x05, 0x00, 0x00, 0xFF, 0x20⟩ [] ⟨0x0202, 0xFF, 0x00, 0x00, 0xFF, 0xA0⟩ [] 2 &&
    vector [0xE9, 0x20] 65536 ⟨0x0200, 0x50, 0x00, 0x00, 0xFF, 0x21⟩ []
      ⟨0x0202, 0x30, 0x00, 0x00, 0xFF, 0x21⟩ [] 2) = true := by
  decide

/-- V-ARI-9, V-ARI-10, V-ARI-11, V-ARI-12, V-ARI-13, V-ARI-14, V-ARI-15 -/
theorem test_adcImmDecimal :
    (vector [0x69, 0x34] 65536 ⟨0x0200, 0x12, 0x00, 0x00, 0xFF, 0x28⟩ []
      ⟨0x0202, 0x46, 0x00, 0x00, 0xFF, 0x28⟩ [] 2 &&
    vector [0x69, 0x01] 65536 ⟨0x0200, 0x99, 0x00, 0x00, 0xFF, 0x28⟩ [] ⟨0x0202, 0x00, 0x00, 0x00, 0xFF, 0xA9⟩ [] 2 &&
    vector [0x69, 0x00] 65536 ⟨0x0200, 0x79, 0x00, 0x00, 0xFF, 0x29⟩ [] ⟨0x0202, 0x80, 0x00, 0x00, 0xFF, 0xE8⟩ [] 2 &&
    vector [0x69, 0x76] 65536 ⟨0x0200, 0x89, 0x00, 0x00, 0xFF, 0x28⟩ [] ⟨0x0202, 0x65, 0x00, 0x00, 0xFF, 0x29⟩ [] 2 &&
    vector [0x69, 0x82] 65536 ⟨0x0200, 0x93, 0x00, 0x00, 0xFF, 0x28⟩ [] ⟨0x0202, 0x75, 0x00, 0x00, 0xFF, 0x69⟩ [] 2 &&
    vector [0x69, 0x46] 65536 ⟨0x0200, 0x58, 0x00, 0x00, 0xFF, 0x29⟩ [] ⟨0x0202, 0x05, 0x00, 0x00, 0xFF, 0xE9⟩ [] 2 &&
    vector [0x69, 0x01] 65536 ⟨0x0200, 0x0F, 0x00, 0x00, 0xFF, 0x28⟩ []
      ⟨0x0202, 0x16, 0x00, 0x00, 0xFF, 0x28⟩ [] 2) = true := by
  decide

/-- V-ARI-16, V-ARI-17, V-ARI-18, V-ARI-19, V-ARI-20 -/
theorem test_sbcImmDecimal :
    (vector [0xE9, 0x12] 65536 ⟨0x0200, 0x46, 0x00, 0x00, 0xFF, 0x29⟩ []
      ⟨0x0202, 0x34, 0x00, 0x00, 0xFF, 0x29⟩ [] 2 &&
    vector [0xE9, 0x13] 65536 ⟨0x0200, 0x40, 0x00, 0x00, 0xFF, 0x29⟩ [] ⟨0x0202, 0x27, 0x00, 0x00, 0xFF, 0x29⟩ [] 2 &&
    vector [0xE9, 0x02] 65536 ⟨0x0200, 0x32, 0x00, 0x00, 0xFF, 0x28⟩ [] ⟨0x0202, 0x29, 0x00, 0x00, 0xFF, 0x29⟩ [] 2 &&
    vector [0xE9, 0x21] 65536 ⟨0x0200, 0x12, 0x00, 0x00, 0xFF, 0x29⟩ [] ⟨0x0202, 0x91, 0x00, 0x00, 0xFF, 0xA8⟩ [] 2 &&
    vector [0xE9, 0x01] 65536 ⟨0x0200, 0x00, 0x00, 0x00, 0xFF, 0x29⟩ []
      ⟨0x0202, 0x99, 0x00, 0x00, 0xFF, 0xA8⟩ [] 2) = true := by
  decide

/-- V-ARI-21 -/
theorem test_adcIndY :
    vector [0x71, 0x10] 65536 ⟨0x0200, 0x25, 0x00, 0x01, 0xFF, 0x28⟩ [(0x0010, 0xFF), (0x0011, 0x20), (0x2100, 0x25)]
      ⟨0x0202, 0x50, 0x00, 0x01, 0xFF, 0x28⟩ [] 5 = true := by
  decide

/-- V-STK-1, V-STK-6 -/
theorem test_pha :
    (vector [0x48] 65536 ⟨0x0200, 0x5A, 0x00, 0x00, 0xFF, 0x20⟩ []
      ⟨0x0201, 0x5A, 0x00, 0x00, 0xFE, 0x20⟩ [(0x01FF, 0x5A)] 3 &&
    vector [0x48] 65536 ⟨0x0200, 0x77, 0x00, 0x00, 0x00, 0x20⟩ []
      ⟨0x0201, 0x77, 0x00, 0x00, 0xFF, 0x20⟩ [(0x0100, 0x77)] 3) = true := by
  decide

/-- V-STK-2, V-STK-7 -/
theorem test_pla :
    (vector [0x68] 65536 ⟨0x0200, 0x00, 0x00, 0x00, 0xFE, 0x20⟩ [(0x01FF, 0x80)]
      ⟨0x0201, 0x80, 0x00, 0x00, 0xFF, 0xA0⟩ [] 4 &&
    vector [0x68] 65536 ⟨0x0200, 0x00, 0x00, 0x00, 0xFF, 0x20⟩ [(0x0100, 0x00)]
      ⟨0x0201, 0x00, 0x00, 0x00, 0x00, 0x22⟩ [] 4) = true := by
  decide

/-- V-STK-3, V-STK-5a -/
theorem test_php :
    (vector [0x08] 65536 ⟨0x0200, 0x00, 0x00, 0x00, 0xFF, 0x21⟩ []
      ⟨0x0201, 0x00, 0x00, 0x00, 0xFE, 0x21⟩ [(0x01FF, 0x31)] 3 &&
    vector [0x08] 65536 ⟨0x0200, 0x00, 0x00, 0x00, 0xFF, 0x01⟩ []
      ⟨0x0201, 0x00, 0x00, 0x00, 0xFE, 0x01⟩ [(0x01FF, 0x31)] 3) = true := by
  decide

/-- V-STK-4, V-STK-5b -/
theorem test_plp :
    (vector [0x28] 65536 ⟨0x0200, 0x00, 0x00, 0x00, 0xFE, 0x20⟩ [(0x01FF, 0xDF)]
      ⟨0x0201, 0x00, 0x00, 0x00, 0xFF, 0xDF⟩ [] 4 &&
    vector [0x28] 65536 ⟨0x0200, 0x00, 0x00, 0x00, 0xFE, 0x01⟩ [(0x01FF, 0x31)]
      ⟨0x0201, 0x00, 0x00, 0x00, 0xFF, 0x31⟩ [] 4) = true := by
  decide

/-- V-STK-8, V-STK-12 -/
theorem test_jsr :
    (vector [0x20, 0x00, 0x30] 65536 ⟨0x0200, 0x00, 0x00, 0x00, 0xFF, 0x20⟩ []
      ⟨0x3000, 0x00, 0x00, 0x00, 0xFD, 0x20⟩ [(0x01FE, 0x02), (0x01FF, 0x02)] 6 &&
    vector [0x20, 0x00, 0x30] 0x0100 ⟨0x0200, 0x00, 0x00, 0x00, 0xFF, 0x20⟩ []
      ⟨0x3000, 0x00, 0x00, 0x00, 0xFD, 0x20⟩ [] 6) = true := by
  decide

/-- V-STK-9 -/
theorem test_rts :
    vector [0x60] 65536 ⟨0x0200, 0x00, 0x00, 0x00, 0xFD, 0x20⟩ [(0x01FE, 0x02), (0x01FF, 0x02)]
      ⟨0x0203, 0x00, 0x00, 0x00, 0xFF, 0x20⟩ [] 6 = true := by
  decide

/-- V-STK-10 -/
theorem test_brk :
    vector [0x00] 65536 ⟨0x0200, 0x00, 0x00, 0x00, 0xFF, 0x20⟩ [(0xFFFE, 0x00), (0xFFFF, 0x80)]
      ⟨0x8000, 0x00, 0x00, 0x00, 0xFC, 0x34⟩ [(0x01FD, 0x34), (0x01FE, 0x01), (0x01FF, 0x02)] 7 = true := by
  decide

/-- V-STK-11 -/
theorem test_rti :
    vector [0x40] 65536 ⟨0x0200, 0x00, 0x00, 0x00, 0xFC, 0x20⟩ [(0x01FD, 0xC3), (0x01FE, 0x01), (0x01FF, 0x02)]
      ⟨0x0201, 0x00, 0x00, 0x00, 0xFF, 0xC3⟩ [] 6 = true := by
  decide

/-- V-BR-1, V-BR-2 -/
theorem test_bne :
    (vector [0xD0, 0x10] 65536 ⟨0x0200, 0x00, 0x00, 0x00, 0xFF, 0x22⟩ []
      ⟨0x0202, 0x00, 0x00, 0x00, 0xFF, 0x22⟩ [] 2 &&
    vector [0xD0, 0x10] 65536 ⟨0x0200, 0x00, 0x00, 0x00, 0xFF, 0x20⟩ []
      ⟨0x0212, 0x00, 0x00, 0x00, 0xFF, 0x20⟩ [] 3) = true := by
  decide

/-- V-BR-3, V-BR-10 -/
theorem test_beq :
    (vector [0xF0, 0xFE] 65536 ⟨0x0200, 0x00, 0x00, 0x00, 0xFF, 0x22⟩ []
      ⟨0x0200, 0x00, 0x00, 0x00, 0xFF, 0x22⟩ [] 3 &&
    vector [0xF0, 0x02] 65536 ⟨0xFFFE, 0x00, 0x00, 0x00, 0xFF, 0x22⟩ []
      ⟨0x0002, 0x00, 0x00, 0x00, 0xFF, 0x22⟩ [] 3) = true := by
  decide

/-- V-BR-4 -/
theorem test_bpl :
    vector [0x10, 0x7F] 65536 ⟨0x0280, 0x00, 0x00, 0x00, 0xFF, 0x20⟩ []
      ⟨0x0301, 0x00, 0x00, 0x00, 0xFF, 0x20⟩ [] 3 = true := by
  decide

/-- V-BR-5 -/
theorem test_bmi :
    vector [0x30, 0x80] 65536 ⟨0x0010, 0x00, 0x00, 0x00, 0xFF, 0xA0⟩ []
      ⟨0xFF92, 0x00, 0x00, 0x00, 0xFF, 0xA0⟩ [] 3 = true := by
  decide

/-- V-BR-6 -/
theorem test_bvc :
    vector [0x50, 0x02] 65536 ⟨0x0200, 0x00, 0x00, 0x00, 0xFF, 0x20⟩ []
      ⟨0x0204, 0x00, 0x00, 0x00, 0xFF, 0x20⟩ [] 3 = true := by
  decide

/-- V-BR-7 -/
theorem test_bvs :
    vector [0x70, 0x02] 65536 ⟨0x0200, 0x00, 0x00, 0x00, 0xFF, 0x20⟩ []
      ⟨0x0202, 0x00, 0x00, 0x00, 0xFF, 0x20⟩ [] 2 = true := by
  decide

/-- V-BR-8 -/
theorem test_bcc :
    vector [0x90, 0x02] 65536 ⟨0x0200, 0x00, 0x00, 0x00, 0xFF, 0x21⟩ []
      ⟨0x0202, 0x00, 0x00, 0x00, 0xFF, 0x21⟩ [] 2 = true := by
  decide

/-- V-BR-9 -/
theorem test_bcs :
    vector [0xB0, 0x02] 65536 ⟨0x0200, 0x00, 0x00, 0x00, 0xFF, 0x21⟩ []
      ⟨0x0204, 0x00, 0x00, 0x00, 0xFF, 0x21⟩ [] 3 = true := by
  decide

/-- V-BR-11 -/
theorem test_jmpAbs :
    vector [0x4C, 0x34, 0x12] 65536 ⟨0x0200, 0x00, 0x00, 0x00, 0xFF, 0x20⟩ []
      ⟨0x1234, 0x00, 0x00, 0x00, 0xFF, 0x20⟩ [] 3 = true := by
  decide

/-- V-BR-12, V-BR-13 -/
theorem test_jmpInd :
    (vector [0x6C, 0xFF, 0x10] 65536 ⟨0x0200, 0x00, 0x00, 0x00, 0xFF, 0x20⟩ [(0x10FF, 0x78), (0x1100, 0x56), (0x1000, 0x12)]
      ⟨0x5678, 0x00, 0x00, 0x00, 0xFF, 0x20⟩ [] 5 &&
    vector [0x6C, 0xFF, 0xFF] 65536 ⟨0x0200, 0x00, 0x00, 0x00, 0xFF, 0x20⟩ [(0xFFFF, 0x34), (0x0000, 0x12)]
      ⟨0x1234, 0x00, 0x00, 0x00, 0xFF, 0x20⟩ [] 5) = true := by
  decide

/-- V-TR-1 -/
theorem test_tax :
    vector [0xAA] 65536 ⟨0x0200, 0x00, 0x55, 0x00, 0xFF, 0x20⟩ []
      ⟨0x0201, 0x00, 0x00, 0x00, 0xFF, 0x22⟩ [] 2 = true := by
  decide

/-- V-TR-2 -/
theorem test_txa :
    vector [0x8A] 65536 ⟨0x0200, 0x00, 0x80, 0x00, 0xFF, 0x20⟩ []
      ⟨0x0201, 0x80, 0x80, 0x00, 0xFF, 0xA0⟩ [] 2 = true := by
  decide

/-- V-TR-3 -/
theorem test_tay :
    vector [0xA8] 65536 ⟨0x0200, 0x01, 0x00, 0x00, 0xFF, 0xA2⟩ []
      ⟨0x0201, 0x01, 0x00, 0x01, 0xFF, 0x20⟩ [] 2 = true := by
  decide

/-- V-TR-4 -/
theorem test_tya :
    vector [0x98] 65536 ⟨0x0200, 0x00, 0x00, 0xFF, 0xFF, 0x20⟩ []
      ⟨0x0201, 0xFF, 0x00, 0xFF, 0xFF, 0xA0⟩ [] 2 = true := by
  decide

/-- V-TR-5 -/
theorem test_tsx :
    vector [0xBA] 65536 ⟨0x0200, 0x00, 0x55, 0x00, 0x00, 0xA0⟩ []
      ⟨0x0201, 0x00, 0x00, 0x00, 0x00, 0xA0⟩ [] 2 = true := by
  decide

/-- V-TR-6 -/
theorem test_txs :
    vector [0x9A] 65536 ⟨0x0200, 0x00, 0x80, 0x00, 0xFF, 0x20⟩ []
      ⟨0x0201, 0x00, 0x80, 0x00, 0x80, 0x20⟩ [] 2 = true := by
  decide

/-- V-TR-7 -/
theorem test_inx :
    vector [0xE8] 65536 ⟨0x0200, 0x00, 0xFF, 0x00, 0xFF, 0x20⟩ []
      ⟨0x0201, 0x00, 0x00, 0x00, 0xFF, 0x22⟩ [] 2 = true := by
  decide

/-- V-TR-8 -/
theorem test_iny :
    vector [0xC8] 65536 ⟨0x0200, 0x00, 0x00, 0x7F, 0xFF, 0x20⟩ []
      ⟨0x0201, 0x00, 0x00, 0x80, 0xFF, 0xA0⟩ [] 2 = true := by
  decide

/-- V-TR-9 -/
theorem test_dex :
    vector [0xCA] 65536 ⟨0x0200, 0x00, 0x00, 0x00, 0xFF, 0x20⟩ []
      ⟨0x0201, 0x00, 0xFF, 0x00, 0xFF, 0xA0⟩ [] 2 = true := by
  decide

/-- V-TR-10 -/
theorem test_dey :
    vector [0x88] 65536 ⟨0x0200, 0x00, 0x00, 0x01, 0xFF, 0x20⟩ []
      ⟨0x0201, 0x00, 0x00, 0x00, 0xFF, 0x22⟩ [] 2 = true := by
  decide

/-- V-LS-1 -/
theorem test_ldaImm :
    vector [0xA9, 0x00] 65536 ⟨0x0200, 0x12, 0x00, 0x00, 0xFF, 0x20⟩ []
      ⟨0x0202, 0x00, 0x00, 0x00, 0xFF, 0x22⟩ [] 2 = true := by
  decide

/-- V-LS-2 -/
theorem test_ldaZpX :
    vector [0xB5, 0xF0] 65536 ⟨0x0200, 0x00, 0x20, 0x00, 0xFF, 0x20⟩ [(0x0010, 0x99)]
      ⟨0x0202, 0x99, 0x20, 0x00, 0xFF, 0xA0⟩ [] 4 = true := by
  decide

/-- V-LS-3 -/
theorem test_ldaAbsX :
    vector [0xBD, 0xFF, 0xFF] 65536 ⟨0x0200, 0x00, 0x02, 0x00, 0xFF, 0x20⟩ [(0x0001, 0x42)]
      ⟨0x0203, 0x42, 0x02, 0x00, 0xFF, 0x20⟩ [] 4 = true := by
  decide

/-- V-LS-4 -/
theorem test_ldaAbsY :
    vector [0xB9, 0x00, 0x30] 65536 ⟨0x0200, 0x00, 0x00, 0x10, 0xFF, 0x20⟩ [(0x3010, 0x7F)]
      ⟨0x0203, 0x7F, 0x00, 0x10, 0xFF, 0x20⟩ [] 4 = true := by
  decide

/-- V-LS-5, V-LS-6 -/
theorem test_ldaIndX :
    (vector [0xA1, 0xFF] 65536 ⟨0x0200, 0x00, 0x01, 0x00, 0xFF, 0x20⟩ [(0x0100, 0x00), (0x0101, 0x40), (0x0000, 0x00), (0x4000, 0x5A)]
      ⟨0x0202, 0x5A, 0x01, 0x00, 0xFF, 0x20⟩ [] 6 &&
    vector [0xA1, 0xFF] 65536 ⟨0x0200, 0x00, 0x00, 0x00, 0xFF, 0x20⟩ [(0x00FF, 0x00), (0x0100, 0x40), (0x4000, 0x66)]
      ⟨0x0202, 0x66, 0x00, 0x00, 0xFF, 0x20⟩ [] 6) = true := by
  decide

/-- V-LS-7 -/
theorem test_ldaIndY :
    vector [0xB1, 0xFF] 65536 ⟨0x0200, 0x00, 0x00, 0x01, 0xFF, 0x20⟩ [(0x00FF, 0xFF), (0x0100, 0x40), (0x4100, 0x11)]
      ⟨0x0202, 0x11, 0x00, 0x01, 0xFF, 0x20⟩ [] 5 = true := by
  decide

/-- V-LS-8 -/
theorem test_ldxZpY :
    vector [0xB6, 0xFF] 65536 ⟨0x0200, 0x00, 0x00, 0x02, 0xFF, 0x20⟩ [(0x0001, 0x80)]
      ⟨0x0202, 0x00, 0x80, 0x02, 0xFF, 0xA0⟩ [] 4 = true := by
  decide

/-- V-LS-9 -/
theorem test_ldxAbsY :
    vector [0xBE, 0x00, 0x20] 65536 ⟨0x0200, 0x00, 0x00, 0x01, 0xFF, 0x20⟩ [(0x2001, 0x01)]
      ⟨0x0203, 0x00, 0x01, 0x01, 0xFF, 0x20⟩ [] 4 = true := by
  decide

/-- V-LS-10 -/
theorem test_ldyImm :
    vector [0xA0, 0xFF] 65536 ⟨0x0200, 0x00, 0x00, 0x00, 0xFF, 0x20⟩ []
      ⟨0x0202, 0x00, 0x00, 0xFF, 0xFF, 0xA0⟩ [] 2 = true := by
  decide

/-- V-LS-11 -/
theorem test_ldyAbsX :
    vector [0xBC, 0x00, 0x20] 65536 ⟨0x0200, 0x00, 0x01, 0x00, 0xFF, 0xA0⟩ [(0x2001, 0x00)]
      ⟨0x0203, 0x00, 0x01, 0x00, 0xFF, 0x22⟩ [] 4 = true := by
  decide

/-- V-LS-12, V-LS-14 -/
theorem test_staAbs :
    (vector [0x8D, 0x00, 0x30] 65536 ⟨0x0200, 0x00, 0x00, 0x00, 0xFF, 0x80⟩ []
      ⟨0x0203, 0x00, 0x00, 0x00, 0xFF, 0x80⟩ [] 4 &&
    vector [0x8D, 0x00, 0xC0] 0xC000 ⟨0x0200, 0xAB, 0x00, 0x00, 0xFF, 0x20⟩ []
      ⟨0x0203, 0xAB, 0x00, 0x00, 0xFF, 0x20⟩ [] 4) = true := by
  decide

/-- V-LS-13 -/
theorem test_staIndY :
    vector [0x91, 0x10] 65536 ⟨0x0200, 0xAB, 0x00, 0x10, 0xFF, 0x20⟩ [(0x0010, 0x00), (0x0011, 0x30)]
      ⟨0x0202, 0xAB, 0x00, 0x10, 0xFF, 0x20⟩ [(0x3010, 0xAB)] 6 = true := by
  decide

/-- V-LS-15 -/
theorem test_stxZpY :
    vector [0x96, 0xFF] 65536 ⟨0x0200, 0x00, 0x3C, 0x11, 0xFF, 0x20⟩ []
      ⟨0x0202, 0x00, 0x3C, 0x11, 0xFF, 0x20⟩ [(0x0010, 0x3C)] 4 = true := by
  decide

/-- V-LS-16 -/
theorem test_styZpX :
    vector [0x94, 0x10] 65536 ⟨0x0200, 0x00, 0x01, 0x3C, 0xFF, 0x20⟩ []
      ⟨0x0202, 0x00, 0x01, 0x3C, 0xFF, 0x20⟩ [(0x0011, 0x3C)] 4 = true := by
  decide

/-- V-LS-17 -/
theorem test_clc :
    vector [0x18] 65536 ⟨0x0200, 0x00, 0x00, 0x00, 0xFF, 0x21⟩ []
      ⟨0x0201, 0x00, 0x00, 0x00, 0xFF, 0x20⟩ [] 2 = true := by
  decide

/-- V-LS-18 -/
theorem test_sec :
    vector [0x38] 65536 ⟨0x0200, 0x00, 0x00, 0x00, 0xFF, 0x20⟩ []
      ⟨0x0201, 0x00, 0x00, 0x00, 0xFF, 0x21⟩ [] 2 = true := by
  decide

/-- V-LS-19 -/
theorem test_cli :
    vector [0x58] 65536 ⟨0x0200, 0x00, 0x00, 0x00, 0xFF, 0x24⟩ []
      ⟨0x0201, 0x00, 0x00, 0x00, 0xFF, 0x20⟩ [] 2 = true := by
  decide

/-- V-LS-20 -/
theorem test_sei :
    vector [0x78] 65536 ⟨0x0200, 0x00, 0x00, 0x00, 0xFF, 0x20⟩ []
      ⟨0x0201, 0x00, 0x00, 0x00, 0xFF, 0x24⟩ [] 2 = true := by
  decide

/-- V-LS-21 -/
theorem test_clv :
    vector [0xB8] 65536 ⟨0x0200, 0x00, 0x00, 0x00, 0xFF, 0x60⟩ []
      ⟨0x0201, 0x00, 0x00, 0x00, 0xFF, 0x20⟩ [] 2 = true := by
  decide

/-- V-LS-22 -/
theorem test_cld :
    vector [0xD8] 65536 ⟨0x0200, 0x00, 0x00, 0x00, 0xFF, 0x28⟩ []
      ⟨0x0201, 0x00, 0x00, 0x00, 0xFF, 0x20⟩ [] 2 = true := by
  decide

/-- V-LS-23 -/
theorem test_sed :
    vector [0xF8] 65536 ⟨0x0200, 0x00, 0x00, 0x00, 0xFF, 0x20⟩ []
      ⟨0x0201, 0x00, 0x00, 0x00, 0xFF, 0x28⟩ [] 2 = true := by
  decide

/-- V-LS-24 -/
theorem test_nop :
    vector [0xEA] 65536 ⟨0x0200, 0x00, 0x00, 0x00, 0xFF, 0x20⟩ []
      ⟨0x0201, 0x00, 0x00, 0x00, 0xFF, 0x20⟩ [] 2 = true := by
  decide

/-! ### The address decoder and traps: one step of each V-MEM vector (spec/95_test_vectors.md) -/

/-- The conventions' start state with a special range and what the callbacks answer, in order. -/
def deviceStart (w : Regs) (rom : Fin 65537) (start stop : Fin 65537) (answers : List Byte)
    (cells : List (Word × Byte)) (bytes : List Byte) : State :=
  { startAt w bytes cells with
    romBoundary := rom
    specialStart := start
    specialEnd := stop
    readCallback := some 0
    writeCallback := some 1
    hostAnswers := answers.map (fun v => { value := v, pokes := [] }) }

/-- One step from `st` leads to these registers, these bytes at these addresses, and this trap log, newest first. -/
def deviceStep (st : State) (w' : Regs) (cells' : List (Word × Byte)) (log : List TrapEvent) : Bool :=
  match step st with
  | .next t => t.work = w' && cells'.all (fun c => t.byteAt c.1 = c.2) && t.trapLog = log
  | .fault _ | .refused _ => false

/-- V-MEM-1: the read is cached. -/
theorem test_mem_read_trap :
    deviceStep (deviceStart ⟨0x0200, 0, 0, 0, 0xFF, 0x20⟩ 65536 0xD000 0xD010 [0x5A] [(0xD005, 0x11)] [0xAD, 0x05, 0xD0])
      ⟨0x0203, 0x5A, 0, 0, 0xFF, 0x20⟩ [(0xD005, 0x5A)] [.read 0xD005 0x5A] = true := by
  decide

/-- V-MEM-2 and V-MEM-4: a write trap stores nothing; special wins over ROM. -/
theorem test_mem_write_trap :
    (deviceStep (deviceStart ⟨0x0200, 0x77, 0, 0, 0xFF, 0x20⟩ 65536 0xD000 0xD010 [0] [(0xD00F, 0x11)] [0x8D, 0x0F, 0xD0])
      ⟨0x0203, 0x77, 0, 0, 0xFF, 0x20⟩ [(0xD00F, 0x11)] [.write 0xD00F 0x77] &&
    deviceStep (deviceStart ⟨0x0200, 0x01, 0, 0, 0xFF, 0x20⟩ 0xC000 0xD000 0xD010 [0] [] [0x8D, 0x00, 0xD0])
      ⟨0x0203, 0x01, 0, 0, 0xFF, 0x20⟩ [(0xD000, 0x00)] [.write 0xD000 0x01]) = true := by
  decide

/-- V-MEM-3: one read trap, then one write trap. -/
theorem test_mem_modify_traps :
    deviceStep (deviceStart ⟨0x0200, 0, 0, 0, 0xFF, 0x20⟩ 65536 0xD000 0xD010 [0x41, 0] [] [0xEE, 0x00, 0xD0])
      ⟨0x0203, 0, 0, 0, 0xFF, 0x20⟩ [(0xD000, 0x41)] [.write 0xD000 0x42, .read 0xD000 0x41] = true := by
  decide

/-- V-MEM-5: the end of the special range is exclusive. -/
theorem test_mem_special_end :
    deviceStep (deviceStart ⟨0x0200, 0, 0, 0, 0xFF, 0x20⟩ 65536 0xD000 0xD010 [] [(0xD010, 0x33)] [0xAD, 0x10, 0xD0])
      ⟨0x0203, 0x33, 0, 0, 0xFF, 0x20⟩ [(0xD010, 0x33)] [] = true := by
  decide

/-- V-MEM-6: opcode and operand are fetched through the read callback. -/
theorem test_mem_fetch_traps :
    deviceStep (deviceStart ⟨0xD000, 0, 0, 0, 0xFF, 0x20⟩ 65536 0xD000 0xD010 [0xA9, 0x07] [] [])
      ⟨0xD002, 0x07, 0, 0, 0xFF, 0x20⟩ [(0xD000, 0xA9), (0xD001, 0x07)]
      [.read 0xD001 0x07, .read 0xD000 0xA9] = true := by
  decide

/-- V-MEM-7: the last RAM address stores, the first ROM address drops. -/
theorem test_mem_rom_boundary :
    (vector [0x8D, 0xFF, 0x7F] 0x8000 ⟨0x0200, 0x44, 0, 0, 0xFF, 0x20⟩ [] ⟨0x0203, 0x44, 0, 0, 0xFF, 0x20⟩ [(0x7FFF, 0x44)] 4 &&
    vector [0x8D, 0x00, 0x80] 0x8000 ⟨0x0200, 0x44, 0, 0, 0xFF, 0x20⟩ [] ⟨0x0203, 0x44, 0, 0, 0xFF, 0x20⟩ [] 4) = true := by
  decide

/-! ### The loop: the step of each V-LOOP vector that decides it -/

/-- One step of the call `execute(ticks)` from the registers `w`, with the budget it entered with, ends the call with this
program counter, this tick budget and this answer. -/
def endsCall (bytes : List Byte) (w : Regs) (ticks : Int) (pc' : Word) (budget' : Int) (r : CallResult) : Bool :=
  match step { startAt w bytes [] with budget := ticks, phase := .running ticks } with
  | .next t => t.phase = .idle && t.record = { w with pc := pc' } && t.tickBudget = budget' && t.result = some r
  | .fault _ | .refused _ => false

/-- V-LOOP-1, V-LOOP-3, V-LOOP-4a, V-LOOP-4b. -/
theorem test_loop_exits :
    (endsCall [0x02] ⟨0x0200, 0, 0, 0, 0xFF, 0x20⟩ 10 0x0201 10 ⟨0, .haltedIllegalOpcode⟩ &&
    endsCall [0xEA] ⟨0x0200, 0, 0, 0, 0xFF, 0x00⟩ 100 0x0200 100 ⟨0, .stopped⟩ &&
    endsCall [0xEA] ⟨0x0200, 0, 0, 0, 0xFF, 0x20⟩ 0 0x0200 0 ⟨0, .exhausted⟩ &&
    endsCall [0xEA] ⟨0x0200, 0, 0, 0, 0xFF, 0x20⟩ (-3) 0x0200 (-3) ⟨0, .exhausted⟩) = true := by
  decide

/-- V-LOOP-5 and V-LOOP-9: after CLC from `p = 1` and after PLP of 0x00 the next test stops the call. -/
theorem test_loop_stop_sentinel :
    (vector [0x18] 65536 ⟨0x0200, 0, 0, 0, 0xFF, 0x01⟩ [] ⟨0x0201, 0, 0, 0, 0xFF, 0x00⟩ [] 2 &&
    vector [0x28] 65536 ⟨0x0200, 0, 0, 0, 0xFE, 0x20⟩ [(0x01FF, 0x00)] ⟨0x0201, 0, 0, 0, 0xFF, 0x00⟩ [] 4 &&
    decide (stopTest (startAt ⟨0x0201, 0, 0, 0, 0xFF, 0x00⟩ [] []) = some .stopped)) = true := by
  decide

/-- The host's load: the very next step after reset runs the placed instruction (log 12), here STA $1234 and BRK. -/
theorem test_withFetchWord :
    (decodeTableWord 24 0x12348D = some (.staAbs 0x1234) ∧ decodeTableWord 8 0x00 = some .brk ∧
      decodeTableWord 8 0x02 = none ∧ decodeTableWord 8 0xA9 = some (.ldaImm 0x00)) ∧
    (match step (State.reset.withFetchWord 24 0x12348D) with
      | .next t => t.work.pc = 0x0003 && t.budget = 1 - 4 && t.work.a = 0x00
      | .fault _ | .refused _ => false) = true := by
  constructor <;> decide

/-- R141 on bytes that are not decimal (V-ARI-15) and on L1-2, R142 on L1-3: result, C, V, Z, N. -/
theorem test_decimal_cores :
    addDec 0x0F 0x01 false = { r := 0x16, c := false, v := false, z := false, n := false } ∧
      addDec 0x99 0x01 false = { r := 0x00, c := true, v := false, z := false, n := true } ∧
      subDec 0x00 0x01 true = { r := 0x99, c := false, v := false, z := false, n := true } := by
  decide

/-- R278: the host sets `pc` from the bytes at 0xFFFC itself; the configuration port writes the record. -/
theorem test_configure :
    configure (.pc 0x8000) State.reset = some { State.reset with record := { Regs.reset with pc := 0x8000 } } ∧
    configure (.pc 0x8000) { State.reset with phase := .entering 1 } = none ∧
    create false = .fault .outOfMemory ∧ Vm.destroy (.live State.reset) = some .released ∧
    Vm.destroy .released = none := by
  exact ⟨rfl, rfl, rfl, rfl, rfl⟩

/-! ### Witnesses: concrete inputs that meet the hypotheses of the statements -/

/-- A running call of five cycles on these registers and bytes. -/
def runningState (w : Regs) (bytes : List Byte) : State :=
  { startAt w bytes [] with budget := 5, tickBudget := 5, phase := .running 5 }

/-- Registers for the witnesses: `p` with N, V and D set. -/
def someRegs : Regs := ⟨0x0200, 0x81, 0x01, 0x02, 0x01, 0xE8⟩

theorem witness_EncodeOfDecodeGivesTheBytes : decode [0x8D, 0xFF, 0xFF, 0xEA] = .ok (.staAbs 0xFFFF, [0xEA]) := by
  decide

theorem witness_IllegalBytesAreThoseListed :
    (0x02 : Byte) ∈ illegalOpcodes ∧ (0xFF : Byte) ∈ illegalOpcodes ∧ (0x00 : Byte) ∉ illegalOpcodes ∧
      (0xFE : Byte) ∉ illegalOpcodes := by
  decide

theorem witness_OpcodeByteFixesModeAndLength :
    (Instr.staAbs 0xFFFF).operand = .mem (.abs 0xFFFF) ∧ (Instr.staAbsX 0).operand = .mem (.absX 0) ∧
      (Instr.staAbsY 0x1234).operand = .mem (.absY 0x1234) ∧ (Instr.jmpInd 0x10FF).operand = .mem (.ind 0x10FF) ∧
      Instr.nop.operand = .implied ∧ Instr.aslAcc.operand = .acc ∧ (Instr.ldaImm 0xFF).operand = .imm 0xFF ∧
      (Instr.bne 0x80).operand = .mem (.rel 0x80) ∧ (Instr.staAbs 0xFFFF).opcode = (Instr.staAbs 0).opcode := by
  decide

/-- The costs that spec/95_test_vectors.md shows: V-CMP-6, V-CMP-7, V-LOG-14, V-LS-8, V-LS-10, V-LS-11, V-LS-15, V-LS-16,
V-LS-12, V-LS-13. -/
theorem test_baseCycles :
    [baseCycles .cpx .zp, baseCycles .cpy .abs, baseCycles .bit .zp, baseCycles .ldx .zpY, baseCycles .ldy .imm,
      baseCycles .ldy .absX, baseCycles .stx .zpY, baseCycles .sty .zpX, baseCycles .sta .abs, baseCycles .sta .indY] =
    [3, 4, 3, 4, 2, 4, 4, 4, 4, 6].map some := by
  decide

/-- LDA # whose operand byte is fetched from 0x0000, after the last address. -/
theorem witness_StepRunsTheDecodedInstruction :
    let st := runningState { someRegs with pc := 0xFFFF } [0xA9, 0x42]
    st.phase = .running 5 ∧ st.work.p ≠ 0x00 ∧ 0 < st.budget ∧
      (∀ k < (Instr.ldaImm 0x42).length, ¬ st.isSpecial (st.work.pc + BitVec.ofNat 16 k)) ∧
      decode [st.byteAt st.work.pc, st.byteAt (st.work.pc + 1), st.byteAt (st.work.pc + 2)] =
        .ok (.ldaImm 0x42, [0x00]) ∧
      (∃ row, tableEntry (st.byteAt st.work.pc) = some row) ∧ (∃ st', fetchInstr st = .legal (.ldaImm 0x42) st') :=
  ⟨rfl, by decide, by decide, by decide, by decide, ⟨_, rfl⟩, ⟨_, rfl⟩⟩

/-- LDA # whose opcode and operand byte are special: both are fetched through the read callback, and 2 is charged. -/
theorem witness_StepRunsTheDecodedInstruction_special :
    let st := { deviceStart { someRegs with pc := 0xD000 } 65536 0xD000 0xD010 [0xA9, 0x07] [] [] with
      budget := 5, phase := .running 5 }
    st.phase = .running 5 ∧ st.work.p ≠ 0x00 ∧ 0 < st.budget ∧
      (∃ row, tableEntry (fetchByte st).1 = some row ∧ row.mode.operandBytes = 1 ∧ row.cycles = 2) ∧
      (∃ row, tableEntry (fetchByte (runningState someRegs [0xEA])).1 = some row ∧ row.mode.operandBytes = 0) ∧
      (∃ row, tableEntry (fetchByte (runningState someRegs [0x4C])).1 = some row ∧ row.mode.operandBytes = 2) :=
  ⟨rfl, by decide, by decide, ⟨_, rfl, rfl, rfl⟩, ⟨_, rfl, rfl⟩, ⟨_, rfl, rfl⟩⟩

theorem witness_IllegalOpcodeHaltsTheCall :
    let st := runningState someRegs [0x02]
    st.phase = .running 5 ∧ st.work.p ≠ 0x00 ∧ 0 < st.budget ∧ tableEntry (memRead st.work.pc st).1 = none :=
  ⟨rfl, by decide, by decide, rfl⟩

theorem witness_EntryCopiesTheRecord :
    State.reset.phase = .idle ∧
      ({ State.reset with phase := .entering 7 } : State).phase = .entering 7 ∧
      ({ State.reset with phase := .entering 7 } : State).launchable ∧
      ¬ ({ State.reset with phase := .entering 7, specialEnd := 1 } : State).launchable ∧
      ¬ ({ State.reset with phase := .entering 7, specialStart := 1 } : State).launchable := by
  decide

theorem witness_StopTestsInOrder :
    (runningState { someRegs with p := 0x00 } []).phase = .running 5 ∧
      (runningState { someRegs with p := 0x00 } []).work.p = 0x00 ∧
      ({ runningState someRegs [] with budget := 0 } : State).work.p ≠ 0x00 ∧
      ({ runningState someRegs [] with budget := 0 } : State).budget ≤ 0 := by
  decide

theorem witness_ExitFlushesTheWorkingState :
    ∃ t, (runningState someRegs [0x02]).phase = .running 5 ∧ step (runningState someRegs [0x02]) = .next t ∧
      t.phase = .idle :=
  ⟨_, rfl, rfl, rfl⟩

theorem witness_RecordKeepsItsEntryValuesDuringACall :
    ∃ t, (runningState someRegs [0xE8]).phase = .running 5 ∧ step (runningState someRegs [0xE8]) = .next t ∧
      t.phase ≠ .idle :=
  ⟨_, rfl, rfl, by decide⟩

/-- Between calls, with NOPs at 0x0200. -/
def idleNops : State :=
  { startAt someRegs [0xEA, 0xEA, 0xEA] [] with phase := .idle }

/-- `execute(ticks)` ends with this answer. -/
def answers (ticks : Int) (st : State) (r : CallResult) : Bool :=
  match execute ticks st with
  | some (.next t) => t.result = some r
  | _ => false

theorem witness_CallEndsWithinItsBudget :
    idleNops.phase = .idle ∧ idleNops.launchable ∧ answers 0 idleNops ⟨0, .exhausted⟩ = true ∧
      answers 1 idleNops ⟨2, .exhausted⟩ = true ∧
      answers 1 { idleNops with record := { someRegs with p := 0x00 } } ⟨0, .stopped⟩ = true ∧
      answers 3 { idleNops with record := { someRegs with pc := 0x02FF }, memory := [(0x02FF, 0x02)] }
        ⟨0, .haltedIllegalOpcode⟩ = true := by
  decide

/-- NOPs: `execute(1)` overruns by 1; `execute(2 - 1)` then ends where `execute(3)` ends. -/
theorem witness_CallsAddUpWhenTheDebtIsCarried :
    ∃ s1 s2 t, idleNops.phase = .idle ∧ (0 : Int) ≤ 2 ∧ execute 1 idleNops = some (.next s1) ∧
      s1.result = some { ticksConsumed := 2, status := .exhausted } ∧ execute (2 + s1.tickBudget) s1 = some (.next s2) ∧
      execute (1 + 2) idleNops = some (.next t) ∧
      t.trapLog.length ≤ idleNops.trapLog.length + idleNops.hostAnswers.length :=
  ⟨_, _, _, rfl, by decide, rfl, rfl, rfl, rfl, by decide⟩

theorem witness_ExecuteOneRunsOneInstruction :
    (idleNops.phase = .idle ∧ idleNops.launchable ∧ idleNops.record.p ≠ 0x00) ∧
      (∃ s' t, fetchInstr (enterCall 1 idleNops) = .legal .nop s' ∧ exec .nop s' = .next t) ∧
      (∃ s', fetchInstr (enterCall 1 { idleNops with memory := [(0x0200, 0x02)] }) = .illegal s') :=
  ⟨by decide, ⟨_, _, rfl, rfl⟩, ⟨_, rfl⟩⟩

theorem witness_LogicalOperationsResult :
    (Instr.oraIndX 0xFF).operand = .mem (.indX 0xFF) ∧ (Instr.oraIndX 0xFF).mnemonic = .ora ∧
      (Instr.andAbsY 0xFFFF).operand = .mem (.absY 0xFFFF) ∧ (Instr.andAbsY 0xFFFF).mnemonic = .and ∧
      (Instr.eorZp 0x00).operand = .mem (.zp 0x00) ∧ (Instr.eorZp 0x00).mnemonic = .eor := by
  decide

theorem witness_ReadModifyWriteResult :
    (Instr.lsrAbsX 0xFFFF).operand = .mem (.absX 0xFFFF) ∧ (Instr.lsrAbsX 0xFFFF).mnemonic = .lsr ∧
      (Instr.rolZpX 0xFF).operand = .mem (.zpX 0xFF) ∧ (Instr.rolZpX 0xFF).mnemonic = .rol ∧
      (Instr.rorAbs 0).operand = .mem (.abs 0) ∧ (Instr.rorAbs 0).mnemonic = .ror ∧
      (Instr.incZp 0).operand = .mem (.zp 0) ∧ (Instr.incZp 0).mnemonic = .inc ∧
      (Instr.decZpX 0x80).operand = .mem (.zpX 0x80) ∧ (Instr.decZpX 0x80).mnemonic = .dec := by
  decide

theorem witness_ShiftLeftResult :
    (Instr.aslAbsX 0xFFFF).mnemonic = .asl ∧ (Instr.aslAbsX 0xFFFF).operand = .mem (.absX 0xFFFF) := by
  decide

theorem witness_BitTestResult :
    (Instr.bitAbs 0xFFFF).mnemonic = .bit ∧ (Instr.bitAbs 0xFFFF).operand = .mem (.abs 0xFFFF) := by
  decide

theorem witness_CompareResult :
    (Instr.cmpIndY 0xFF).operand = .mem (.indY 0xFF) ∧ (Instr.cmpIndY 0xFF).mnemonic = .cmp ∧
      (Instr.cpxZp 0).operand = .mem (.zp 0) ∧ (Instr.cpxZp 0).mnemonic = .cpx ∧
      (Instr.cpyAbs 0xFFFF).operand = .mem (.abs 0xFFFF) ∧ (Instr.cpyAbs 0xFFFF).mnemonic = .cpy := by
  decide

theorem witness_AddWithCarryResult :
    (Instr.adcIndY 0xFF).mnemonic = .adc ∧ (Instr.adcIndY 0xFF).operand = .mem (.indY 0xFF) := by
  decide

theorem witness_SubtractWithBorrowResult :
    (Instr.sbcIndX 0xFF).mnemonic = .sbc ∧ (Instr.sbcIndX 0xFF).operand = .mem (.indX 0xFF) := by
  decide

theorem witness_DecimalCoresComputeInDecimal : isBcd 0x99 ∧ isBcd 0x00 := by
  unfold isBcd
  decide

/-- The stack slots 0x0101, 0x0100 and 0x01FF: the stack pointer wraps. -/
theorem witness_PushThenPullRestores :
    let st := runningState someRegs []
    Memory.wf st.memory ∧ st.isRam (stackAddr st.work.s) ∧ st.isRam (stackAddr (st.work.s - 1)) ∧
      st.isRam (stackAddr (st.work.s - 2)) := by
  decide

theorem witness_SubroutineReturnsBehindItsCall :
    let st := runningState { someRegs with s := 0x00 } []
    Memory.wf st.memory ∧ st.isRam (stackAddr st.work.s) ∧ st.isRam (stackAddr (st.work.s - 1)) := by
  decide

theorem witness_ReturnBehindTheBreak :
    let st := { runningState someRegs [] with specialStart := 0, specialEnd := 0x0100 }
    Memory.wf st.memory ∧ st.isRam (stackAddr st.work.s) ∧ st.isRam (stackAddr (st.work.s - 1)) ∧
      st.isRam (stackAddr (st.work.s - 2)) ∧ ¬ st.isSpecial 0xFFFE ∧ ¬ st.isSpecial 0xFFFF := by
  decide

theorem witness_LoadResult :
    (Instr.ldaIndX 0xFF).operand = .mem (.indX 0xFF) ∧ (Instr.ldaIndX 0xFF).mnemonic = .lda ∧
      (Instr.ldxAbsY 0xFFFF).operand = .mem (.absY 0xFFFF) ∧ (Instr.ldxAbsY 0xFFFF).mnemonic = .ldx ∧
      (Instr.ldyZpX 0xFF).operand = .mem (.zpX 0xFF) ∧ (Instr.ldyZpX 0xFF).mnemonic = .ldy := by
  decide

theorem witness_StoreResult :
    (Instr.staIndY 0xFF).operand = .mem (.indY 0xFF) ∧ (Instr.staIndY 0xFF).mnemonic = .sta ∧
      (Instr.stxZpY 0xFF).operand = .mem (.zpY 0xFF) ∧ (Instr.stxZpY 0xFF).mnemonic = .stx ∧
      (Instr.styAbs 0).operand = .mem (.abs 0) ∧ (Instr.styAbs 0).mnemonic = .sty ∧
      (∃ t, exec (.styAbs 0) (runningState someRegs []) = .next t) :=
  ⟨rfl, rfl, rfl, rfl, rfl, rfl, ⟨_, rfl⟩⟩

/-- The pointers at 0x00FF and 0x0100, at 0x00FF, and at 0xFFFF and 0x0000. -/
theorem witness_PointerModesResolve :
    let st := { runningState someRegs [] with specialStart := 0xD000, specialEnd := 0xD010 }
    (¬ st.isSpecial (BitVec.ofNat 16 (0xFF + st.work.x.toNat)) ∧
        ¬ st.isSpecial (BitVec.ofNat 16 (0xFF + st.work.x.toNat + 1))) ∧
      (¬ st.isSpecial (BitVec.ofNat 16 0xFF) ∧ ¬ st.isSpecial (BitVec.ofNat 16 (0xFF + 1))) ∧
      (¬ st.isSpecial (BitVec.ofNat 16 0xFFFF) ∧ ¬ st.isSpecial (BitVec.ofNat 16 (0xFFFF + 1))) := by
  decide

/-- Boundary addresses of the three classes, the special range above `rom_boundary` too. -/
theorem witness_AccessByClass :
    let st := deviceStart someRegs 0xC000 0xD000 0xD010 [] [] []
    Memory.wf st.memory ∧ st.isSpecial 0xD000 ∧ st.isSpecial 0xD00F ∧ ¬ st.isSpecial 0xD010 ∧
      st.classify 0xBFFF = .ram ∧ st.classify 0xC000 = .rom ∧ st.classify 0xCFFF = .rom ∧ st.classify 0xD010 = .rom := by
  decide

theorem witness_CanonicalMemoriesThatReadAlikeAreEqual :
    Memory.wf [(0, 1), (65535, 2)] ∧
      ∀ n < 65536, Memory.read [(0, 1), (65535, 2)] n = Memory.read [(0, 1), (65535, 2)] n :=
  ⟨by decide, fun _ _ => rfl⟩

theorem witness_ModifyTrapsTwiceAndStoreOnce :
    let st := deviceStart someRegs 0xC000 0xD000 0xD010 [] [] []
    ((Instr.incAbs 0xD00F).operand = .mem (.abs 0xD00F) ∧ (∃ t, exec (.incAbs 0xD00F) st = .next t) ∧
        (resolve (.abs 0xD00F) st).2 = st ∧ st.isSpecial (resolve (.abs 0xD00F) st).1 ∧
        (Instr.incAbs 0xD00F).mnemonic ∈ [Mnemonic.asl, .lsr, .rol, .ror, .inc, .dec]) ∧
      ((Instr.stxAbs 0xD000).operand = .mem (.abs 0xD000) ∧ (∃ t, exec (.stxAbs 0xD000) st = .next t) ∧
        (resolve (.abs 0xD000) st).2 = st ∧ st.isSpecial (resolve (.abs 0xD000) st).1 ∧
        (Instr.stxAbs 0xD000).mnemonic ∈ [Mnemonic.sta, .stx, .sty]) :=
  ⟨⟨rfl, ⟨_, rfl⟩, rfl, by decide, by decide⟩, ⟨rfl, ⟨_, rfl⟩, rfl, by decide, by decide⟩⟩

theorem witness_StoresOnlyToItsAddresses :
    let st := runningState someRegs []
    (∃ t, exec (.ldaAbs 0x0000) st = .next t ∧ NoTrap st t ∧ storedAddrs (.ldaAbs 0x0000) st = []) ∧
      (∃ t, exec .brk st = .next t ∧ NoTrap st t ∧ Memory.wf st.memory ∧
        (0x0102 : Word) ∉ storedAddrs .brk st ∧ storedAddrs .brk st = [0x0101, 0x0100, 0x01FF]) :=
  ⟨⟨_, rfl, rfl, rfl⟩, ⟨_, rfl, rfl, by decide, by decide, by decide⟩⟩

theorem witness_InstructionsLeaveRecordAndConfiguration :
    ∃ t, exec (.bne 0x80) (runningState { someRegs with p := 0x20 } []) = .next t ∧ t.budget = 4 :=
  ⟨_, rfl, by decide⟩

/-- Each register changes under one of its writers. -/
theorem witness_RegistersAreWrittenOnlyByTheirWriters :
    let st := runningState someRegs []
    (∃ t, exec .tya st = .next t ∧ t.work.a ≠ st.work.a) ∧
      (∃ t, exec .rorAcc st = .next t ∧ t.work.a ≠ st.work.a) ∧ (∃ t, exec .dex st = .next t ∧ t.work.x ≠ st.work.x) ∧
      (∃ t, exec .iny st = .next t ∧ t.work.y ≠ st.work.y) ∧ (∃ t, exec .rti st = .next t ∧ t.work.s ≠ st.work.s) ∧
      (∃ t, exec (.bmi 0x7F) st = .next t ∧ t.work.pc ≠ st.work.pc) :=
  ⟨⟨_, rfl, by decide⟩, ⟨_, rfl, by decide⟩, ⟨_, rfl, by decide⟩, ⟨_, rfl, by decide⟩, ⟨_, rfl, by decide⟩, ⟨_, rfl, by decide⟩⟩

/-- Each flag changes under one of its writers. -/
theorem witness_FlagsAreWrittenOnlyByTheirWriters :
    let st := runningState someRegs []
    (∃ t, exec (.ldaImm 0) st = .next t ∧ flagN t.work.p ≠ flagN st.work.p ∧ flagZ t.work.p ≠ flagZ st.work.p) ∧
      (∃ t, exec .clv st = .next t ∧ flagV t.work.p ≠ flagV st.work.p) ∧
      (∃ t, exec .plp st = .next t ∧ flagU t.work.p ≠ flagU st.work.p) ∧
      (∃ t, exec .brk st = .next t ∧ flagB t.work.p ≠ flagB st.work.p ∧ flagI t.work.p ≠ flagI st.work.p) ∧
      (∃ t, exec .cld st = .next t ∧ flagD t.work.p ≠ flagD st.work.p) ∧
      (∃ t, exec .aslAcc st = .next t ∧ flagC t.work.p ≠ flagC st.work.p) :=
  ⟨⟨_, rfl, by decide, by decide⟩, ⟨_, rfl, by decide⟩, ⟨_, rfl, by decide⟩, ⟨_, rfl, by decide, by decide⟩,
    ⟨_, rfl, by decide⟩, ⟨_, rfl, by decide⟩⟩

/-- `q` differs from `p` in U, B, D and I for an instruction that does not look at D, and in U, B and I for SBC. -/
theorem witness_OnlyPhpAndBrkLookAtTheHiddenFlags :
    (Instr.cmpImm 5).mnemonic ≠ .php ∧ (Instr.cmpImm 5).mnemonic ≠ .brk ∧ flagN 0xD4 = flagN someRegs.p ∧
      flagV 0xD4 = flagV someRegs.p ∧ flagZ 0xD4 = flagZ someRegs.p ∧ flagC 0xD4 = flagC someRegs.p ∧
      ((Instr.cmpImm 5).mnemonic = .adc ∨ (Instr.cmpImm 5).mnemonic = .sbc → flagD 0xD4 = flagD someRegs.p) ∧
      (Instr.sbcImm 5).mnemonic = .sbc ∧ flagD 0xDC = flagD someRegs.p ∧ (0xDC : Byte) ≠ someRegs.p := by
  decide

theorem witness_StepsNeverChangeRom :
    let st := { runningState someRegs [0x8D, 0x00, 0xC0] with romBoundary := 0xC000 }
    ∃ t, Memory.wf st.memory ∧ step st = .next t ∧ NoTrap st t ∧ st.classify 0xC000 = .rom :=
  ⟨_, by decide, rfl, rfl, by decide⟩

theorem witness_StepsNeverChangeTheConfiguration : ∃ t, step (runningState someRegs [0x00]) = .next t := ⟨_, rfl⟩

/-- A running call whose record is as `callWf` says, before and after a step. -/
theorem witness_StepsKeepTheInvariant :
    ∃ t, (runningState someRegs [0xEA]).Inv ∧ step (runningState someRegs [0xEA]) = .next t := by
  refine ⟨_, ⟨by decide, ?_⟩, rfl⟩
  show State.launchable _ ∧ (5 : Int) = 5 ∧ none = none ∧ (5 : Int) ≤ 5 ∧ ((5 : Int) = 5 ∨ _)
  exact ⟨by decide, rfl, rfl, by decide, .inl rfl⟩

theorem witness_HostPortsKeepTheInvariant :
    idleNops.phase = .idle ∧ (runningState someRegs []).phase ≠ .idle ∧
      ({ idleNops with phase := .entering 0 } : State).phase ≠ .idle ∧ idleNops.Inv ∧
      (∃ t, configure (.memory 0xFFFF 0x80) idleNops = some t) ∧ (∃ t, issueExecute (-1) idleNops = some t) := by
  refine ⟨by decide, by decide, by decide, ⟨by decide, ?_⟩, ⟨_, rfl⟩, ⟨_, rfl⟩⟩
  intro r h
  cases h

theorem witness_HostWritesTakeEffect : idleNops.phase = .idle ∧ Memory.wf idleNops.memory := by
  decide

/-- R8: a direct write lands in ROM and in the special range, without a trap. -/
theorem test_direct_write :
    (match configure (.memory 0xD000 0x5A) { deviceStart someRegs 0xC000 0xD000 0xD010 [] [] [] with phase := .idle } with
      | some t => t.byteAt 0xD000 = 0x5A && t.trapLog = []
      | none => false) = true := by
  decide

end Sys2Proof.Tests
end

section
/-! The host's ports between calls (spec/00_scope.md R8 and R9): when each is open, what a host write leaves unchanged, and
that neither port breaks the invariant. -/

namespace Sys2Proof.Machine

/-! ### When the ports are open -/

theorem configure_of_idle {st : State} (h : st.phase = .idle) (w : HostWrite) : configure w st = some (w.apply st) :=
  if_pos h

theorem configure_of_not_idle {st : State} (h : st.phase ≠ .idle) (w : HostWrite) : configure w st = none :=
  if_neg h

theorem issueExecute_of_idle {st : State} (h : st.phase = .idle) (ticks : Int) :
    issueExecute ticks st = some { st with phase := .entering ticks } :=
  if_pos h

theorem issueExecute_of_not_idle {st : State} (h : st.phase ≠ .idle) (ticks : Int) : issueExecute ticks st = none :=
  if_neg h

/-- A host write that the configuration port takes was made between calls. -/
theorem configure_eq_some_iff {w : HostWrite} {st t : State} :
    configure w st = some t ↔ st.phase = .idle ∧ w.apply st = t := by
  simp [configure]

/-- A call that the execute port issues was issued between calls. -/
theorem issueExecute_eq_some_iff {ticks : Int} {st t : State} :
    issueExecute ticks st = some t ↔ st.phase = .idle ∧ { st with phase := .entering ticks } = t := by
  simp [issueExecute]

/-! ### What a host write leaves unchanged -/

@[simp] theorem HostWrite.apply_phase (w : HostWrite) (st : State) : (w.apply st).phase = st.phase := by
  cases w <;> rfl

@[simp] theorem HostWrite.apply_result (w : HostWrite) (st : State) : (w.apply st).result = st.result := by
  cases w <;> rfl

@[simp] theorem HostWrite.apply_tickBudget (w : HostWrite) (st : State) : (w.apply st).tickBudget = st.tickBudget := by
  cases w <;> rfl

/-- A write of a memory byte keeps the canonical form; every other host write leaves memory alone. -/
theorem HostWrite.apply_wf (w : HostWrite) {st : State} (h : Memory.wf st.memory) : Memory.wf (w.apply st).memory := by
  cases w with
  | memory addr v => exact setByte_wf h
  | _ => exact h

/-! ### The invariant at the ports -/

/-- Between calls `callWf` speaks only of the last answer and the record's tick budget. -/
theorem State.callWf_of_idle {st : State} (h : st.phase = .idle) :
    st.callWf ↔ ∀ r ∈ st.result, r.wf st.tickBudget := by
  simp only [State.callWf, h]

/-- While the entry of a call is pending `callWf` asks nothing. -/
theorem State.callWf_of_entering {st : State} {ticks : Int} (h : st.phase = .entering ticks) : st.callWf := by
  simp only [State.callWf, h]

/-- A host write keeps what `callWf` asks between calls, since it leaves the phase, the answer and the budget alone. -/
theorem HostWrite.apply_inv (w : HostWrite) {st : State} (hidle : st.phase = .idle) (h : st.Inv) : (w.apply st).Inv := by
  obtain ⟨hmem, hcall⟩ := h
  refine ⟨w.apply_wf hmem, ?_⟩
  rw [State.callWf_of_idle hidle] at hcall
  rwa [State.callWf_of_idle (by rw [w.apply_phase, hidle]), w.apply_result, w.apply_tickBudget]

theorem configure_inv {w : HostWrite} {st t : State} (h : st.Inv) (hw : configure w st = some t) : t.Inv := by
  obtain ⟨hidle, rfl⟩ := configure_eq_some_iff.mp hw
  exact w.apply_inv hidle h

theorem issueExecute_inv {ticks : Int} {st t : State} (h : st.Inv) (hi : issueExecute ticks st = some t) : t.Inv := by
  obtain ⟨hmem, -⟩ := h
  obtain ⟨-, rfl⟩ := issueExecute_eq_some_iff.mp hi
  exact ⟨hmem, State.callWf_of_entering rfl⟩

/-- Settles O57: both ports answer by the phase alone, and each keeps the invariant. -/
theorem hostPortsKeepTheInvariant : Obligations.HostPortsKeepTheInvariant := by
  intro st t w ticks
  refine ⟨fun hidle => ?_, fun hbusy => ?_, fun hinv hport => ?_⟩
  · exact ⟨configure_of_idle hidle w, issueExecute_of_idle hidle ticks⟩
  · exact ⟨configure_of_not_idle hbusy w, issueExecute_of_not_idle hbusy ticks⟩
  · exact hport.elim (configure_inv hinv) (issueExecute_inv hinv)

/-- Settles O59: the port is open between calls, so that each write has the effect `HostWrite.apply` gives it, and a memory
byte is read back as `State.byteAt_setByte` says, with no look at the class of its address. -/
theorem hostWritesTakeEffect : Obligations.HostWritesTakeEffect := by
  intro st hidle hmem
  have hopen : ∀ w, configure w st = some (w.apply st) := configure_of_idle hidle
  refine ⟨fun v => hopen (.pc v), fun v => hopen (.a v), fun v => hopen (.x v), fun v => hopen (.y v),
    fun v => hopen (.s v), fun v => hopen (.p v), fun v => hopen (.romBoundary v),
    fun start stop => hopen (.specialRange start stop), fun h => hopen (.readCallback h),
    fun h => hopen (.writeCallback h), fun addr v => ?_⟩
  exact ⟨st.setByte addr v, hopen (.memory addr v), rfl, fun k => State.byteAt_setByte hmem addr k v⟩

end Sys2Proof.Machine
end

section
/-! What one step can do, said once: the entry of a call, an exit, or one fetched instruction; and what an instruction's
memory accesses and register writes (`Ran`) leave of the record, the configuration, the phase and the answer. -/

namespace Sys2Proof.Machine

/-! ### The fields that no memory access and no register write touches -/

theorem Ran.record {st t : State} (h : Ran st t) : t.record = st.record := by rw [h.same]

theorem Ran.tickBudget {st t : State} (h : Ran st t) : t.tickBudget = st.tickBudget := by rw [h.same]

theorem Ran.phase {st t : State} (h : Ran st t) : t.phase = st.phase := by rw [h.same]

theorem Ran.result {st t : State} (h : Ran st t) : t.result = st.result := by rw [h.same]

/-- The two states have the same configuration: ROM boundary, special range and callbacks (R30, R31, R33). -/
def SameConfiguration (st t : State) : Prop :=
  t.romBoundary = st.romBoundary ∧ t.specialStart = st.specialStart ∧ t.specialEnd = st.specialEnd ∧
    t.readCallback = st.readCallback ∧ t.writeCallback = st.writeCallback

theorem SameConfiguration.refl (st : State) : SameConfiguration st st := ⟨rfl, rfl, rfl, rfl, rfl⟩

theorem Ran.sameConfiguration {st t : State} (h : Ran st t) : SameConfiguration st t := by
  rw [h.same]
  exact SameConfiguration.refl st

theorem enterCall_sameConfiguration (ticks : Int) (st : State) : SameConfiguration st (enterCall ticks st) :=
  SameConfiguration.refl st

theorem SameConfiguration.exitCall {st t : State} (h : SameConfiguration st t) (ticks : Int) (status : ExitStatus) :
    SameConfiguration st (exitCall ticks status t) := h

/-! ### Fetching -/

theorem fetchByte_ran (st : State) : Ran st (fetchByte st).2 := (memRead_ran st.work.pc st).withWork _

/-- The state a fetch leads to, whether its opcode byte is legal or not. -/
def Fetched.state : Fetched → State
  | .illegal st => st
  | .legal _ st => st

theorem fetchOperands_ran (row : TableRow) (st : State) : Ran st (fetchOperands row st).state := by
  have hcharge : Ran st (st.charge row.cycles) := (Ran.refl st).charge _
  unfold fetchOperands
  split
  · exact hcharge
  · exact hcharge.trans (fetchByte_ran _)
  · exact (hcharge.trans (fetchByte_ran _)).trans (fetchByte_ran _)

theorem fetchInstr_ran (st : State) : Ran st (fetchInstr st).state := by
  unfold fetchInstr
  dsimp only
  split
  · exact fetchByte_ran st
  · exact (fetchByte_ran st).trans (fetchOperands_ran _ _)

theorem ran_of_fetchInstr_illegal {st u : State} (h : fetchInstr st = .illegal u) : Ran st u := by
  simpa only [h, Fetched.state] using fetchInstr_ran st

theorem ran_of_fetchInstr_legal {i : Instr} {st u : State} (h : fetchInstr st = .legal i u) : Ran st u := by
  simpa only [h, Fetched.state] using fetchInstr_ran st

/-! ### One step -/

/-- One iteration of the loop leaves the call by a stop test or an illegal byte, or runs one fetched instruction. -/
theorem loopStep_cases {ticks : Int} {st t : State} (h : loopStep ticks st = .next t) :
    (∃ status, stopTest st = some status ∧ t = exitCall ticks status st) ∨
    (∃ u, stopTest st = none ∧ fetchInstr st = .illegal u ∧ t = exitCall ticks .haltedIllegalOpcode u) ∨
    (∃ i u, stopTest st = none ∧ fetchInstr st = .legal i u ∧ exec i u = .next t) := by
  unfold loopStep at h
  split at h
  · rename_i status hstop
    exact .inl ⟨status, hstop, by cases h; rfl⟩
  · rename_i hstop
    split at h
    · rename_i u hfetch
      exact .inr (.inl ⟨u, hstop, hfetch, by cases h; rfl⟩)
    · rename_i i u hfetch
      exact .inr (.inr ⟨i, u, hstop, hfetch, h⟩)

/-- A step waits between calls, enters a configured call, or is one iteration of the loop. -/
theorem step_cases {st t : State} (h : step st = .next t) :
    (st.phase = .idle ∧ t = st) ∨
    (∃ ticks, st.phase = .entering ticks ∧ st.launchable ∧ t = enterCall ticks st) ∨
    (∃ ticks, st.phase = .running ticks ∧ loopStep ticks st = .next t) := by
  unfold step at h
  split at h
  · exact .inl ⟨‹_›, by cases h; rfl⟩
  · split at h
    · exact .inr (.inl ⟨_, ‹_›, ‹_›, by cases h; rfl⟩)
    · cases h
  · exact .inr (.inr ⟨_, ‹_›, h⟩)

/-- An iteration of the loop stays in the call by accesses and register writes alone, or exits after some of them. -/
theorem loopStep_ran {ticks : Int} {st t : State} (h : loopStep ticks st = .next t) :
    Ran st t ∨ ∃ status u, Ran st u ∧ t = exitCall ticks status u := by
  obtain ⟨status, -, ht⟩ | ⟨u, -, hfetch, ht⟩ | ⟨i, u, -, hfetch, hexec⟩ := loopStep_cases h
  · exact .inr ⟨status, st, Ran.refl st, ht⟩
  · exact .inr ⟨_, u, ran_of_fetchInstr_illegal hfetch, ht⟩
  · exact .inl ((ran_of_fetchInstr_legal hfetch).trans (exec_ran hexec))

/-- Settles O13: a step that stays in the call made accesses and register writes alone. -/
theorem recordKeepsItsEntryValuesDuringACall : Obligations.RecordKeepsItsEntryValuesDuringACall := by
  intro st t ticks hrun hstep hcall
  have hloop : loopStep ticks st = .next t := by simpa only [step, hrun] using hstep
  obtain hran | ⟨status, u, -, rfl⟩ := loopStep_ran hloop
  · exact ⟨hran.phase.trans hrun, hran.record, hran.tickBudget, hran.result⟩
  · exact absurd (State.exitCall_phase u ticks status) hcall

/-- Settles O54: waiting, entering, running an instruction and exiting each keep the configuration. -/
theorem stepsNeverChangeTheConfiguration : Obligations.StepsNeverChangeTheConfiguration := by
  intro st t hstep
  obtain ⟨-, rfl⟩ | ⟨ticks, -, -, rfl⟩ | ⟨ticks, -, hloop⟩ := step_cases hstep
  · exact SameConfiguration.refl t
  · exact enterCall_sameConfiguration ticks st
  · obtain hran | ⟨status, u, hran, rfl⟩ := loopStep_ran hloop
    · exact hran.sameConfiguration
    · exact hran.sameConfiguration.exitCall ticks status

end Sys2Proof.Machine
end

section
/-! Which instructions change the budget and which write each working register, by mnemonic and operand (`effect`). An
operand is one of its mnemonic's forms (`o.mode ∈ m.modes`): INC and DEC have no accumulator form, a branch has a
displacement. -/

namespace Sys2Proof.Machine

/-! ### The operand forms of a mnemonic -/

theorem mode_mem_modes (i : Instr) : i.operand.mode ∈ i.mnemonic.modes :=
  List.contains_iff_mem.mp (Laws.Instr.wellFormed i)

theorem eq_rel_of_mode {o : Operand} (h : o.mode = .rel) : ∃ b, o = .mem (.rel b) := by
  cases o with
  | mem e =>
    cases e with
    | rel b => exact ⟨b, rfl⟩
    | _ => cases h
  | _ => cases h

/-! ### The budget -/

/-- A branch with its displacement costs one cycle more when it is taken (R180). -/
theorem branchOperand_rel_budget (cond : Bool) {o : Operand} (h : o.mode ∈ [Mode.rel]) (st : State) :
    (branchOperand cond o st).budget = if cond then st.budget - 1 else st.budget := by
  obtain ⟨b, rfl⟩ := eq_rel_of_mode (List.mem_singleton.mp h)
  exact branch_budget cond b st

@[simp] theorem takeBreak_budget (st : State) : (takeBreak st).budget = st.budget := by simp [takeBreak]

@[simp] theorem returnFromBreak_budget (st : State) : (returnFromBreak st).budget = st.budget := by
  simp [returnFromBreak]

/-- Only a taken branch changes the budget. -/
theorem effect_budget (m : Mnemonic) (o : Operand) (st : State) (hmode : o.mode ∈ m.modes) :
    (effect m o st).budget = if branchTaken m st.work.p then st.budget - 1 else st.budget := by
  cases m
  case bpl | bmi | bvc | bvs | bcc | bcs | bne | beq => exact branchOperand_rel_budget _ hmode st
  case ora | and | eor | bit | cmp | cpx | cpy | adc | sbc | lda | ldx | ldy => exact loadedOperand_budget o st
  case asl | lsr | rol | ror | inc | dec => exact modifyOperand_budget _ o st
  case sta | stx | sty => exact storeOperand_budget o _ st
  case pha | php => exact push_budget _ st
  case pla | plp => exact pull_budget st
  case jsr => exact callOperand_budget o st
  case rts => exact pullWord_budget st
  case brk => exact takeBreak_budget st
  case rti => exact returnFromBreak_budget st
  case jmp => exact jumpOperand_budget o st
  all_goals rfl

/-- Settles O49: an instruction makes accesses and register writes alone, and only a taken branch changes the budget. -/
theorem instructionsLeaveRecordAndConfiguration : Obligations.InstructionsLeaveRecordAndConfiguration := by
  intro i st t h
  obtain ⟨hsame, hgrown, -⟩ := exec_ran h
  refine ⟨hsame, ?_, hgrown⟩
  rw [eq_effect_of_exec h]
  exact effect_budget _ _ st (mode_mem_modes i)

/-! ### The working registers -/

/-- In its memory form a read-modify-write keeps `a`. -/
theorem modifyOperand_a (f : Byte → Byte → Byte × Byte) {o : Operand} (h : o ≠ .acc) (st : State) :
    (modifyOperand f o st).work.a = st.work.a := by
  cases o with
  | acc => exact absurd rfl h
  | mem e => simp [modifyOperand, modifyEa]
  | _ => rfl

/-- INC and DEC write no register but `p`: they have no accumulator form. -/
theorem modifyOperand_work_of_mem (f : Byte → Byte → Byte × Byte) {o : Operand} (h : o.mode ∈ Mode.modifyGroup)
    (st : State) : (modifyOperand f o st).work = { st.work with p := (modifyOperand f o st).work.p } := by
  have hacc : o ≠ .acc := by
    rintro rfl
    exact absurd h (by decide)
  rw [modifyOperand_work, modifyOperand_a f hacc]

/-- The registers `w` with those that the mnemonic may write (R21 to R26) taken from `w'`. -/
def regsWritten (m : Mnemonic) (w w' : Regs) : Regs :=
  match m with
  | .ora | .and | .eor | .adc | .sbc | .lda | .txa | .tya | .asl | .lsr | .rol | .ror => { w with a := w'.a, p := w'.p }
  | .ldx | .tax | .inx | .dex => { w with x := w'.x, p := w'.p }
  | .ldy | .tay | .iny | .dey => { w with y := w'.y, p := w'.p }
  | .tsx => { w with x := w'.x }
  | .txs | .pha | .php => { w with s := w'.s }
  | .pla => { w with a := w'.a, s := w'.s, p := w'.p }
  | .plp => { w with s := w'.s, p := w'.p }
  | .jsr | .rts => { w with pc := w'.pc, s := w'.s }
  | .brk | .rti => { w with pc := w'.pc, s := w'.s, p := w'.p }
  | .jmp | .bpl | .bmi | .bvc | .bvs | .bcc | .bcs | .bne | .beq => { w with pc := w'.pc }
  | .inc | .dec | .bit | .cmp | .cpx | .cpy => { w with p := w'.p }
  | .clc | .sec | .cli | .sei | .clv | .cld | .sed => { w with p := w'.p }
  | .sta | .stx | .sty | .nop => w

/-- An instruction writes no working register but those of its row in `regsWritten`. -/
theorem effect_work (m : Mnemonic) (o : Operand) (st : State) (hmode : o.mode ∈ m.modes) :
    (effect m o st).work = regsWritten m st.work (effect m o st).work := by
  cases m
  case ora | and | eor | adc | sbc | bit | cmp | cpx | cpy | lda | ldx | ldy =>
    simp [effect, regsWritten, oraOp, andOp, eorOp, adcOp, sbcOp, assignAlu, bitOp, cmpOp, cpxOp, cpyOp, ldaOp, ldxOp,
      ldyOp]
  case asl | lsr | rol | ror => exact modifyOperand_work _ o st
  case inc | dec => exact modifyOperand_work_of_mem _ hmode st
  case sta | stx | sty => exact storeOperand_work o _ st
  case pha | php | pla | plp | rts | brk | rti =>
    simp [effect, regsWritten, plaOp, plpOp, rtsOp, takeBreak, returnFromBreak]
  case jsr => exact callOperand_work o st
  case bpl | bmi | bvc | bvs | bcc | bcs | bne | beq => exact branchOperand_work _ o st
  case jmp => exact jumpOperand_work o st
  all_goals rfl

/-- Reading `regsWritten` by register: the mnemonics whose row has it. -/
theorem mem_of_regsWritten_ne (m : Mnemonic) (w w' : Regs) :
    ((regsWritten m w w').a ≠ w.a → m ∈ [Mnemonic.ora, .and, .eor, .adc, .sbc, .lda, .pla, .txa, .tya] ∨
      m ∈ [Mnemonic.asl, .lsr, .rol, .ror]) ∧
    ((regsWritten m w w').x ≠ w.x → m ∈ [Mnemonic.ldx, .tax, .tsx, .inx, .dex]) ∧
    ((regsWritten m w w').y ≠ w.y → m ∈ [Mnemonic.ldy, .tay, .iny, .dey]) ∧
    ((regsWritten m w w').s ≠ w.s → m ∈ [Mnemonic.txs, .pla, .plp, .rts, .rti, .pha, .php, .jsr, .brk]) ∧
    ((regsWritten m w w').pc ≠ w.pc →
      m ∈ [Mnemonic.jsr, .rts, .brk, .rti, .jmp, .bpl, .bmi, .bvc, .bvs, .bcc, .bcs, .bne, .beq]) := by
  cases m <;> simp [regsWritten]

/-- A shift or rotate that changes `a` is in its accumulator form. -/
theorem operand_acc_of_effect_a_ne {m : Mnemonic} (hm : m ∈ [Mnemonic.asl, .lsr, .rol, .ror]) {o : Operand}
    {st : State} (h : (effect m o st).work.a ≠ st.work.a) : o = .acc := by
  by_contra hacc
  cases m
  case asl | lsr | rol | ror => exact h (modifyOperand_a _ hacc st)
  all_goals exact absurd hm (by decide)

/-- Settles O50: each register by its column in `regsWritten`, and `a` in a shift by the shift's operand too. -/
theorem registersAreWrittenOnlyByTheirWriters : Obligations.RegistersAreWrittenOnlyByTheirWriters := by
  intro i st t h
  have hwork := effect_work i.mnemonic i.operand st (mode_mem_modes i)
  rw [← eq_effect_of_exec h] at hwork
  have hrows := mem_of_regsWritten_ne i.mnemonic st.work t.work
  rw [← hwork] at hrows
  obtain ⟨ha, hx, hy, hs, hpc⟩ := hrows
  refine ⟨fun hne => (ha hne).imp_right fun hshift => ⟨hshift, ?_⟩, hx, hy, hs, hpc⟩
  exact operand_acc_of_effect_a_ne hshift (eq_effect_of_exec h ▸ hne)

end Sys2Proof.Machine
end

section
/-! Which flags an instruction may change (R28), as a mask of bits of `p`: outside its mask the flag byte stays. -/

namespace Sys2Proof.Machine

/-- `q` has the bits of `p` wherever the mask has a 0. -/
def SameOutside (mask q p : Byte) : Prop := ∀ k < 8, mask.getLsbD k = false → q.getLsbD k = p.getLsbD k

theorem SameOutside.refl (mask p : Byte) : SameOutside mask p p := fun _ _ _ => rfl

/-- A bit that differs lies inside the mask. -/
theorem SameOutside.getLsbD_mask {mask q p : Byte} (h : SameOutside mask q p) {k : Nat} (hk : k < 8)
    (hne : q.getLsbD k ≠ p.getLsbD k) : mask.getLsbD k = true :=
  Bool.of_not_eq_false fun hmask => hne (h k hk hmask)

/-- A flag write inside the mask. -/
theorem SameOutside.putMask {mask q p : Byte} (h : SameOutside mask q p) (bits : Byte) (b : Bool)
    (hsub : bits &&& mask = bits) : SameOutside mask (putMask bits b q) p := by
  intro k hk hmask
  have hbit : bits.getLsbD k = false := by rw [← hsub, BitVec.getLsbD_and, hmask, Bool.and_false]
  rw [getLsbD_putMask bits b q k hk, hbit]
  exact h k hk hmask

theorem SameOutside.setzn {mask q p : Byte} (h : SameOutside mask q p) (v : Byte) (hZ : 0x02 &&& mask = 0x02)
    (hN : 0x80 &&& mask = 0x80) : SameOutside mask (setzn v q) p :=
  (h.putMask 0x02 _ hZ).putMask 0x80 _ hN

theorem setzn_sameOutside (v p : Byte) : SameOutside 0x82 (setzn v p) p :=
  (SameOutside.refl _ p).setzn v rfl rfl

/-- C first, then Z and N by the result: the flag write of the shifts, the rotates and Compare. -/
theorem setzn_putC_sameOutside (v : Byte) (c : Bool) (p : Byte) : SameOutside 0x83 (setzn v (putC c p)) p :=
  ((SameOutside.refl _ p).putMask 0x01 c rfl).setzn v rfl rfl

theorem aslCore_sameOutside (v p : Byte) : SameOutside 0x83 (aslCore v p).2 p := setzn_putC_sameOutside _ _ p

theorem lsrCore_sameOutside (v p : Byte) : SameOutside 0x83 (lsrCore v p).2 p := setzn_putC_sameOutside _ _ p

theorem rolCore_sameOutside (v p : Byte) : SameOutside 0x83 (rolCore v p).2 p := setzn_putC_sameOutside _ _ p

theorem rorCore_sameOutside (v p : Byte) : SameOutside 0x83 (rorCore v p).2 p := setzn_putC_sameOutside _ _ p

theorem incCore_sameOutside (v p : Byte) : SameOutside 0x82 (incCore v p).2 p := setzn_sameOutside _ p

theorem decCore_sameOutside (v p : Byte) : SameOutside 0x82 (decCore v p).2 p := setzn_sameOutside _ p

theorem bitFlags_sameOutside (a m p : Byte) : SameOutside 0xC2 (bitFlags a m p) p :=
  (((SameOutside.refl _ p).putMask 0x02 _ rfl).putMask 0x40 _ rfl).putMask 0x80 _ rfl

theorem aluFlags_sameOutside (res : AluResult) (p : Byte) : SameOutside 0xC3 (aluFlags res p) p :=
  ((((SameOutside.refl _ p).putMask 0x01 _ rfl).putMask 0x02 _ rfl).putMask 0x40 _ rfl).putMask 0x80 _ rfl

/-- Without a bit outside its mask nothing is asked. -/
theorem sameOutside_all (q p : Byte) : SameOutside 0xFF q p := by
  intro k hk hmask
  interval_cases k <;> exact absurd hmask (by decide)

/-- A read-modify-write changes the flags that its core changes. -/
theorem modifyOperand_sameOutside {f : Byte → Byte → Byte × Byte} {mask : Byte}
    (hf : ∀ v p, SameOutside mask (f v p).2 p) (o : Operand) (st : State) :
    SameOutside mask (modifyOperand f o st).work.p st.work.p := by
  cases o with
  | mem e =>
    simp only [modifyOperand, modifyEa, State.setP_work, memRead_work, resolve_work]
    exact hf _ _
  | acc => exact hf st.work.a st.work.p
  | _ => exact SameOutside.refl _ _

/-- The flags that a mnemonic may write (R28, column "written by"), as bits of `p`. -/
def flagMask : Mnemonic → Byte
  | .ora | .and | .eor | .inc | .dec | .lda | .ldx | .ldy | .pla => 0x82
  | .tax | .txa | .tay | .tya | .inx | .iny | .dex | .dey => 0x82
  | .asl | .lsr | .rol | .ror | .cmp | .cpx | .cpy => 0x83
  | .bit => 0xC2
  | .adc | .sbc => 0xC3
  | .plp | .rti => 0xFF
  | .brk => 0x14
  | .clc | .sec => 0x01
  | .cli | .sei => 0x04
  | .clv => 0x40
  | .cld | .sed => 0x08
  | _ => 0x00

/-- An instruction changes no flag outside its mask. -/
theorem effect_sameOutside (m : Mnemonic) (o : Operand) (st : State) (hmode : o.mode ∈ m.modes) :
    SameOutside (flagMask m) (effect m o st).work.p st.work.p := by
  have hload : (loadedOperand o st).2.work.p = st.work.p := congrArg Regs.p (loadedOperand_work o st)
  have hpull : (pull st).2.work.p = st.work.p := by rw [pull_work]
  cases m
  case ora | and | eor | lda | ldx | ldy => exact hload ▸ setzn_sameOutside _ (loadedOperand o st).2.work.p
  case pla => exact hpull ▸ setzn_sameOutside _ (pull st).2.work.p
  case tax | txa | tay | tya | inx | iny | dex | dey => exact setzn_sameOutside _ st.work.p
  case cmp | cpx | cpy => exact hload ▸ setzn_putC_sameOutside _ _ (loadedOperand o st).2.work.p
  case bit => exact hload ▸ bitFlags_sameOutside _ _ (loadedOperand o st).2.work.p
  case adc | sbc => exact hload ▸ aluFlags_sameOutside _ (loadedOperand o st).2.work.p
  case asl => exact modifyOperand_sameOutside aslCore_sameOutside o st
  case lsr => exact modifyOperand_sameOutside lsrCore_sameOutside o st
  case rol => exact modifyOperand_sameOutside rolCore_sameOutside o st
  case ror => exact modifyOperand_sameOutside rorCore_sameOutside o st
  case inc => exact modifyOperand_sameOutside incCore_sameOutside o st
  case dec => exact modifyOperand_sameOutside decCore_sameOutside o st
  case clc | sec | cli | sei | clv | cld | sed => exact (SameOutside.refl _ st.work.p).putMask _ _ rfl
  case plp | rti => exact sameOutside_all _ _
  case brk =>
    have hp : (takeBreak st).work.p = putMask 0x14 true st.work.p := by simp [takeBreak, putMask]
    change SameOutside 0x14 (takeBreak st).work.p st.work.p
    rw [hp]
    exact (SameOutside.refl _ st.work.p).putMask _ _ rfl
  case pha | php | jsr | rts | jmp | bpl | bmi | bvc | bvs | bcc | bcs | bne | beq | tsx | txs | sta | stx | sty
      | nop =>
    rw [effect_work _ o st hmode]
    exact SameOutside.refl _ _

/-- The mnemonics that set N and Z by `setzn` (R27, R28). -/
def setznMnemonics : List Mnemonic :=
  [.ora, .and, .eor, .asl, .lsr, .rol, .ror, .inc, .dec, .lda, .ldx, .ldy, .pla, .tax, .txa, .tay, .tya, .inx, .iny,
   .dex, .dey, .cmp, .cpx, .cpy]

/-- Reading `flagMask` by flag: the mnemonics whose mask has its bit. -/
theorem mem_of_flagMask (m : Mnemonic) :
    ((flagMask m).getLsbD 7 = true → m ∈ setznMnemonics ++ [.bit, .adc, .sbc, .plp, .rti]) ∧
    ((flagMask m).getLsbD 6 = true → m ∈ [Mnemonic.adc, .sbc, .bit, .clv, .plp, .rti]) ∧
    ((flagMask m).getLsbD 5 = true → m ∈ [Mnemonic.plp, .rti]) ∧
    ((flagMask m).getLsbD 4 = true → m ∈ [Mnemonic.brk, .plp, .rti]) ∧
    ((flagMask m).getLsbD 3 = true → m ∈ [Mnemonic.sed, .cld, .plp, .rti]) ∧
    ((flagMask m).getLsbD 2 = true → m ∈ [Mnemonic.sei, .cli, .brk, .plp, .rti]) ∧
    ((flagMask m).getLsbD 1 = true → m ∈ setznMnemonics ++ [.bit, .adc, .sbc, .plp, .rti]) ∧
    ((flagMask m).getLsbD 0 = true →
      m ∈ [Mnemonic.asl, .lsr, .rol, .ror, .cmp, .cpx, .cpy, .adc, .sbc, .clc, .sec, .plp, .rti]) := by
  cases m <;> decide

/-- Settles O51: a flag that changed lies inside the instruction's mask, and `flagMask` has that bit only where R28
lists the mnemonic. -/
theorem flagsAreWrittenOnlyByTheirWriters : Obligations.FlagsAreWrittenOnlyByTheirWriters := by
  intro i st t h setznGroup p q
  have hsame := effect_sameOutside i.mnemonic i.operand st (mode_mem_modes i)
  rw [← eq_effect_of_exec h] at hsame
  have hbit : ∀ k < 8, q.getLsbD k ≠ p.getLsbD k → (flagMask i.mnemonic).getLsbD k = true :=
    fun _ hk hne => hsame.getLsbD_mask hk hne
  obtain ⟨hN, hV, hU, hB, hD, hI, hZ, hC⟩ := mem_of_flagMask i.mnemonic
  exact ⟨fun hne => hN (hbit 7 (by decide) hne), fun hne => hV (hbit 6 (by decide) hne),
    fun hne => hU (hbit 5 (by decide) hne), fun hne => hB (hbit 4 (by decide) hne),
    fun hne => hD (hbit 3 (by decide) hne), fun hne => hI (hbit 2 (by decide) hne),
    fun hne => hZ (hbit 1 (by decide) hne), fun hne => hC (hbit 0 (by decide) hne)⟩

end Sys2Proof.Machine
end

section
/-! `setzn` against the flag byte written bit by bit (R27). -/

namespace Sys2Proof.Machine

/-- Settles O18, flag by flag. -/
theorem setznSetsOnlyZeroAndNegative : Obligations.SetznSetsOnlyZeroAndNegative := by
  intro v p
  apply flags_ext <;> simp [flagsNZ, flagsNVZC]

end Sys2Proof.Machine
end

section
/-! Two runs whose flag bytes differ in the hidden flags U, B, D and I alone (R28): no instruction but PHP and BRK,
and for D no instruction but these, ADC and SBC, tells them apart. -/

namespace Sys2Proof.Machine

/-! ### Flag bytes that agree on N, V, Z and C -/

/-- `q` has the flags N, V, Z and C of `p`, the ones branches and rotates look at. -/
structure SameVisible (q p : Byte) : Prop where
  n : flagN q = flagN p
  v : flagV q = flagV p
  z : flagZ q = flagZ p
  c : flagC q = flagC p

section
variable {q p : Byte} (h : SameVisible q p)
include h

theorem SameVisible.putN (b : Bool) : SameVisible (putN b q) (putN b p) := by constructor <;> simp [h.v, h.z, h.c]
theorem SameVisible.putV (b : Bool) : SameVisible (putV b q) (putV b p) := by constructor <;> simp [h.n, h.z, h.c]
theorem SameVisible.putD (b : Bool) : SameVisible (putD b q) (putD b p) := by constructor <;> simp [h.n, h.v, h.z, h.c]
theorem SameVisible.putI (b : Bool) : SameVisible (putI b q) (putI b p) := by constructor <;> simp [h.n, h.v, h.z, h.c]
theorem SameVisible.putZ (b : Bool) : SameVisible (putZ b q) (putZ b p) := by constructor <;> simp [h.n, h.v, h.c]
theorem SameVisible.putC (b : Bool) : SameVisible (putC b q) (putC b p) := by constructor <;> simp [h.n, h.v, h.z]

theorem SameVisible.setzn (r : Byte) : SameVisible (setzn r q) (setzn r p) := (h.putZ _).putN _

theorem SameVisible.compareFlags (r m : Byte) : SameVisible (compareFlags r m q) (compareFlags r m p) :=
  (h.putC _).setzn _

theorem SameVisible.bitFlags (a m : Byte) : SameVisible (bitFlags a m q) (bitFlags a m p) :=
  ((h.putZ _).putV _).putN _

theorem SameVisible.aluFlags (res : AluResult) : SameVisible (aluFlags res q) (aluFlags res p) :=
  (((h.putC _).putZ _).putV _).putN _

end

/-- A read-modify-write core that looks at none of the hidden flags: with flag bytes that agree on the others it gives
the same result and again flag bytes that agree on them. -/
def IgnoresHidden (f : Byte → Byte → Byte × Byte) : Prop :=
  ∀ v q p, SameVisible q p → (f v q).1 = (f v p).1 ∧ SameVisible (f v q).2 (f v p).2

theorem aslCore_ignoresHidden : IgnoresHidden aslCore := fun _ _ _ h => ⟨rfl, (h.putC _).setzn _⟩

theorem lsrCore_ignoresHidden : IgnoresHidden lsrCore := fun _ _ _ h => ⟨rfl, (h.putC _).setzn _⟩

theorem rolCore_ignoresHidden : IgnoresHidden rolCore := by
  intro v q p h
  unfold rolCore
  rw [h.c]
  exact ⟨rfl, (h.putC _).setzn _⟩

theorem rorCore_ignoresHidden : IgnoresHidden rorCore := by
  intro v q p h
  unfold rorCore
  rw [h.c]
  exact ⟨rfl, (h.putC _).setzn _⟩

theorem incCore_ignoresHidden : IgnoresHidden incCore := fun _ _ _ h => ⟨rfl, h.setzn _⟩

theorem decCore_ignoresHidden : IgnoresHidden decCore := fun _ _ _ h => ⟨rfl, h.setzn _⟩

/-- The adder cores look at D and C alone (R143 to R145). -/
theorem adcCore_congr {q p : Byte} (hD : flagD q = flagD p) (hC : flagC q = flagC p) (a m : Byte) :
    adcCore a m q = adcCore a m p := by
  rw [adcCore, hD, hC, adcCore]

theorem sbcCore_congr {q p : Byte} (hD : flagD q = flagD p) (hC : flagC q = flagC p) (a m : Byte) :
    sbcCore a m q = sbcCore a m p := by
  rw [sbcCore, hD, hC, sbcCore]

/-! ### Memory accesses with another flag byte -/

@[simp] theorem State.setP_self (st : State) : st.setP st.work.p = st := rfl

theorem memRead_setP (addr : Word) (st : State) (q : Byte) :
    memRead addr (st.setP q) = ((memRead addr st).1, (memRead addr st).2.setP q) := by
  simp only [State.setP_eq, memRead_withWork, memRead_work]

theorem memWrite_setP (addr : Word) (v : Byte) (st : State) (q : Byte) :
    memWrite addr v (st.setP q) = (memWrite addr v st).setP q := by
  simp only [State.setP_eq, memWrite_withWork, memWrite_work]

theorem memReadPair_setP (lo hi : Word) (st : State) (q : Byte) :
    memReadPair lo hi (st.setP q) = ((memReadPair lo hi st).1, (memReadPair lo hi st).2.setP q) := by
  simp only [memReadPair, memRead_setP]

/-- No addressing mode looks at the flags. -/
theorem resolve_setP (e : Ea) (st : State) (q : Byte) :
    resolve e (st.setP q) = ((resolve e st).1, (resolve e st).2.setP q) := by
  cases e with
  | indX | indY | ind => simp [resolve, indxZpWrap, memReadWord, memReadPair_setP]
  | _ => rfl

theorem loadedOperand_setP (o : Operand) (st : State) (q : Byte) :
    loadedOperand o (st.setP q) = ((loadedOperand o st).1, (loadedOperand o st).2.setP q) := by
  cases o with
  | mem e => simp only [loadedOperand, loadEa, resolve_setP, memRead_setP]
  | _ => rfl

theorem storeOperand_setP (o : Operand) (v : Byte) (st : State) (q : Byte) :
    storeOperand o v (st.setP q) = (storeOperand o v st).setP q := by
  cases o with
  | mem e => simp only [storeOperand, storeEa, resolve_setP, memWrite_setP]
  | _ => rfl

theorem push_setP (v : Byte) (st : State) (q : Byte) : push v (st.setP q) = (push v st).setP q := by
  simp only [push, State.setP_work, memWrite_setP]
  rfl

theorem pull_setP (st : State) (q : Byte) : pull (st.setP q) = ((pull st).1, (pull st).2.setP q) :=
  memRead_setP _ (st.setS (st.work.s + 1)) q

theorem pullWord_setP (st : State) (q : Byte) :
    pullWord (st.setP q) = ((pullWord st).1, (pullWord st).2.setP q) := by
  simp only [pullWord, pull_setP]

theorem branchOperand_setP (cond : Bool) (o : Operand) (st : State) (q : Byte) :
    branchOperand cond o (st.setP q) = (branchOperand cond o st).setP q := by
  unfold branchOperand
  split
  · cases cond <;> rfl
  · rfl

theorem jumpOperand_setP (o : Operand) (st : State) (q : Byte) :
    jumpOperand o (st.setP q) = (jumpOperand o st).setP q := by
  cases o with
  | mem e => simp only [jumpOperand, jmpOp, resolve_setP]; rfl
  | _ => rfl

theorem callOperand_setP (o : Operand) (st : State) (q : Byte) :
    callOperand o (st.setP q) = (callOperand o st).setP q := by
  unfold callOperand
  split
  · simp only [jsrOp, pushWord, resolve, push_setP, State.setP_work]
    rfl
  · rfl

/-! ### Two states that differ in the hidden flags alone -/

/-- `t'` is `t` with another flag byte that agrees on N, V, Z and C. -/
def DiffersInHidden (t' t : State) : Prop := ∃ q, t' = t.setP q ∧ SameVisible q t.work.p

theorem DiffersInHidden.refl (t : State) : DiffersInHidden t t := ⟨t.work.p, rfl, ⟨rfl, rfl, rfl, rfl⟩⟩

/-- Where an operation keeps the flags, it keeps the two flag bytes apart as they were. -/
theorem differsInHidden_setP {q p : Byte} (h : SameVisible q p) {t : State} (ht : t.work.p = p) :
    DiffersInHidden (t.setP q) t := ⟨q, rfl, ht ▸ h⟩

theorem modifyOperand_differsInHidden {f : Byte → Byte → Byte × Byte} (hf : IgnoresHidden f) (o : Operand)
    {st : State} {q : Byte} (h : SameVisible q st.work.p) :
    DiffersInHidden (modifyOperand f o (st.setP q)) (modifyOperand f o st) := by
  cases o with
  | mem e =>
    simp only [modifyOperand, modifyEa, resolve_setP, memRead_setP, State.setP_work, memRead_work, resolve_work]
    obtain ⟨hr, hp⟩ := hf (memRead (resolve e st).1 (resolve e st).2).1 q st.work.p h
    rw [hr, memWrite_setP]
    exact ⟨_, rfl, hp⟩
  | acc =>
    obtain ⟨hr, hp⟩ := hf st.work.a q st.work.p h
    refine ⟨(f st.work.a q).2, ?_, hp⟩
    simp only [modifyOperand, modifyAcc, State.setP_work, hr]
    rfl
  | imm | implied => exact ⟨q, rfl, h⟩

/-- No mnemonic but PHP and BRK looks at U, B and I, and none but these, ADC and SBC at D. -/
theorem effect_differsInHidden (m : Mnemonic) (o : Operand) {st : State} {q : Byte} (hphp : m ≠ .php)
    (hbrk : m ≠ .brk) (h : SameVisible q st.work.p) (hD : m = .adc ∨ m = .sbc → flagD q = flagD st.work.p) :
    DiffersInHidden (effect m o (st.setP q)) (effect m o st) := by
  have hload : SameVisible q (loadedOperand o st).2.work.p := by rwa [loadedOperand_work]
  have hpull : SameVisible q (pull st).2.work.p := by rwa [pull_work]
  have hback : SameVisible q (pullWord st).2.work.p := by rwa [pullWord_work]
  cases m
  case php => exact absurd rfl hphp
  case brk => exact absurd rfl hbrk
  case ora | and | eor | lda | ldx | ldy =>
    simp only [effect, loadedOperand_setP]
    exact ⟨_, rfl, hload.setzn _⟩
  case bit =>
    simp only [effect, loadedOperand_setP]
    exact ⟨_, rfl, hload.bitFlags _ _⟩
  case cmp | cpx | cpy =>
    simp only [effect, loadedOperand_setP]
    exact ⟨_, rfl, hload.compareFlags _ _⟩
  case adc =>
    simp only [effect, loadedOperand_setP, adcOp, State.setP_work, loadedOperand_work,
      adcCore_congr (hD (.inl rfl)) h.c]
    exact ⟨_, rfl, hload.aluFlags _⟩
  case sbc =>
    simp only [effect, loadedOperand_setP, sbcOp, State.setP_work, loadedOperand_work,
      sbcCore_congr (hD (.inr rfl)) h.c]
    exact ⟨_, rfl, hload.aluFlags _⟩
  case asl => exact modifyOperand_differsInHidden aslCore_ignoresHidden o h
  case lsr => exact modifyOperand_differsInHidden lsrCore_ignoresHidden o h
  case rol => exact modifyOperand_differsInHidden rolCore_ignoresHidden o h
  case ror => exact modifyOperand_differsInHidden rorCore_ignoresHidden o h
  case inc => exact modifyOperand_differsInHidden incCore_ignoresHidden o h
  case dec => exact modifyOperand_differsInHidden decCore_ignoresHidden o h
  case pla =>
    simp only [effect, plaOp, pull_setP]
    exact ⟨_, rfl, hpull.setzn _⟩
  case plp | rti =>
    simp only [effect, plpOp, returnFromBreak, pull_setP]
    exact DiffersInHidden.refl _
  case pha =>
    simp only [effect, State.setP_work, push_setP]
    exact differsInHidden_setP h (by rw [push_work])
  case jsr =>
    simp only [effect, callOperand_setP]
    exact differsInHidden_setP h (by rw [callOperand_work])
  case rts =>
    simp only [effect, rtsOp, pullWord_setP]
    exact ⟨q, rfl, hback⟩
  case bpl | bmi | bvc | bvs | bcc | bcs | bne | beq =>
    simp only [effect, State.setP_work, h.n, h.v, h.z, h.c, branchOperand_setP]
    exact differsInHidden_setP h (by rw [branchOperand_work])
  case jmp =>
    simp only [effect, jumpOperand_setP]
    exact differsInHidden_setP h (by rw [jumpOperand_work])
  case sta | stx | sty =>
    simp only [effect, State.setP_work, storeOperand_setP]
    exact differsInHidden_setP h (by rw [storeOperand_work])
  case tax | txa | tay | tya | inx | iny | dex | dey => exact ⟨_, rfl, h.setzn _⟩
  case tsx | txs | nop => exact ⟨q, rfl, h⟩
  case clc | sec => exact ⟨_, rfl, h.putC _⟩
  case cli | sei => exact ⟨_, rfl, h.putI _⟩
  case clv => exact ⟨_, rfl, h.putV _⟩
  case cld | sed => exact ⟨_, rfl, h.putD _⟩

/-- Settles O52: both runs complete, and their ends differ as `effect_differsInHidden` says. -/
theorem onlyPhpAndBrkLookAtTheHiddenFlags : Obligations.OnlyPhpAndBrkLookAtTheHiddenFlags := by
  intro i st q hphp hbrk hN hV hZ hC hD
  obtain ⟨r, ht, hr⟩ := effect_differsInHidden i.mnemonic i.operand hphp hbrk ⟨hN, hV, hZ, hC⟩ hD
  refine ⟨_, _, exec_eq i st, exec_eq i (st.setP q), ?_⟩
  rw [ht]
  exact ⟨rfl, hr.n, hr.v, hr.z, hr.c⟩

end Sys2Proof.Machine
end

section
/-! Single accesses by address class (R52 to R58), the stack operations as one access each (R62, R63), and how often a
store and a read-modify-write trap (R68, R93). -/

namespace Sys2Proof.Machine

/-! ### Traps -/

theorem memRead_trapLog_of_special {st : State} {addr : Word} (h : st.isSpecial addr) :
    (memRead addr st).2.trapLog = .read addr (memRead addr st).1 :: st.trapLog := by
  rw [memRead_special h]
  rfl

theorem memWrite_trapLog_of_special {st : State} {addr : Word} (h : st.isSpecial addr) (v : Byte) :
    (memWrite addr v st).trapLog = .write addr v :: st.trapLog := by
  rw [memWrite_special h]
  rfl

/-- After a read trap the answered byte stands at its address, whatever the callback wrote there (R57, D18). -/
theorem readTrap_byteAt {st : State} (hm : Memory.wf st.memory) (addr k : Word) :
    let ans := ({ st with specialEvent := { st.specialEvent with address := addr } } : State).readAnswer
    (readTrap addr st).2.byteAt k =
      if k = addr then ans.value else Memory.read (Memory.pokeAll st.memory ans.pokes) k.toNat :=
  State.byteAt_setByte (st := { st with memory := Memory.pokeAll st.memory _ }) (Memory.pokeAll_wf hm _) addr k _

/-- Settles O44, from the three classes' conditions and what an access does in each. -/
theorem decoderPriority : Obligations.DecoderPriority := by
  intro st addr v
  refine ⟨State.classify_special, State.classify_rom, State.classify_ram, fun hs => ?_, fun hs => ?_,
    fun hram => memWrite_ram hram v, fun hrom => memWrite_rom hrom v⟩
  · have hspecial := State.classify_special.mp hs
    exact ⟨memRead_trapLog_of_special hspecial, memWrite_trapLog_of_special hspecial v⟩
  · exact memRead_plain fun hspecial => hs (State.classify_special.mpr hspecial)

/-- Settles O45, class by class; the frame of both accesses is `Accessed.same`. -/
theorem accessByClass : Obligations.AccessByClass := by
  intro st addr k v hm
  refine ⟨memRead_plain, fun hs => ?_, fun hram => ?_, fun hrom => memWrite_rom hrom v, fun hs => ?_, ?_⟩
  · rw [memRead_special hs]
    exact ⟨rfl, readTrap_byteAt hm addr k, rfl, rfl⟩
  · rw [memWrite_ram hram]
    exact ⟨State.byteAt_setByte hm addr k v, rfl⟩
  · rw [memWrite_special hs]
    exact ⟨rfl, rfl, rfl⟩
  · rintro t (rfl | rfl)
    · exact (memRead_accessed addr st).same
    · exact (memWrite_accessed addr v st).same

/-- Settles O28: a push is the write and the new `s`, a pull the read and the new `s`. -/
theorem pushStoresThenPullLoads : Obligations.PushStoresThenPullLoads :=
  fun st v => ⟨push_eq v st, pull_eq st⟩

/-! ### Traps of a store and of a read-modify-write -/

/-- Where resolving changes nothing and the data address is special, a store makes one write trap there. -/
theorem storeEa_trapLog_of_special {e : Ea} {st : State} (hres : (resolve e st).2 = st)
    (hs : st.isSpecial (resolve e st).1) (v : Byte) :
    (storeEa e v st).trapLog = .write (resolve e st).1 v :: st.trapLog := by
  simp only [storeEa, hres, memWrite_trapLog_of_special hs]

/-- Where resolving changes nothing and the data address is special, a read-modify-write makes one read trap and then
one write trap there: the read leaves the special range as it was. -/
theorem modifyEa_trapLog_of_special (f : Byte → Byte → Byte × Byte) {e : Ea} {st : State}
    (hres : (resolve e st).2 = st) (hs : st.isSpecial (resolve e st).1) :
    ∃ v r, (modifyEa f e st).trapLog = .write (resolve e st).1 r :: .read (resolve e st).1 v :: st.trapLog := by
  have hs' : (memRead (resolve e st).1 st).2.isSpecial (resolve e st).1 := by
    simpa only [State.isSpecial, memRead_specialStart, memRead_specialEnd] using hs
  simp only [modifyEa, hres, State.setP_trapLog, memWrite_trapLog_of_special hs', memRead_trapLog_of_special hs]
  exact ⟨_, _, rfl⟩

/-- Settles O47, by the nine mnemonics that have a memory operand to store to. -/
theorem modifyTrapsTwiceAndStoreOnce : Obligations.ModifyTrapsTwiceAndStoreOnce := by
  intro i e st t ho h hres hs
  have ht : t = effect i.mnemonic (.mem e) st := ho ▸ eq_effect_of_exec h
  rw [ht]
  generalize i.mnemonic = m
  constructor
  · intro hm
    cases m
    case asl | lsr | rol | ror | inc | dec => exact modifyEa_trapLog_of_special _ hres hs
    all_goals exact absurd hm (by decide)
  · intro hm
    cases m
    case sta | stx | sty => exact ⟨_, storeEa_trapLog_of_special hres hs _⟩
    all_goals exact absurd hm (by decide)

end Sys2Proof.Machine
end

section
/-! A canonical memory as a set of cells: it lists exactly the bytes that differ from what an unlisted address reads as. -/

namespace Sys2Proof.Machine

/-- In a sorted memory a listed cell is what its address reads as. -/
theorem Memory.read_of_mem {m : Memory} (hm : m.Pairwise (fun c d => c.1 < d.1)) {c : Host.Cell} (hc : c ∈ m) :
    Memory.read m c.1 = c.2 := by
  induction m with
  | nil => cases hc
  | cons d m ih =>
    obtain ⟨hd, hrest⟩ := List.pairwise_cons.mp hm
    rcases List.mem_cons.mp hc with rfl | hc
    · simp [Memory.read]
    · have hne : d.1 ≠ c.1 := (hd c hc).ne
      simpa [Memory.read, hne] using ih hrest hc

/-- An address that does not read as an unlisted one is listed. -/
theorem Memory.mem_of_read_ne {m : Memory} {n : Nat} (h : Memory.read m n ≠ Memory.unlisted) :
    (n, Memory.read m n) ∈ m := by
  induction m with
  | nil => exact absurd rfl h
  | cons d m ih =>
    by_cases hd : d.1 = n
    · simp [Memory.read, ← hd]
    · simp only [Memory.read, hd, if_false] at h ⊢
      exact List.mem_cons_of_mem d (ih h)

/-- A cell of a canonical memory is listed in every memory that reads like it. -/
theorem Memory.mem_of_reads_alike {m m' : Memory} (hm : Memory.wf m)
    (h : ∀ n < 65536, Memory.read m n = Memory.read m' n) {c : Host.Cell} (hc : c ∈ m) : c ∈ m' := by
  obtain ⟨hlt, hlisted⟩ := hm.2 c hc
  have hread : Memory.read m' c.1 = c.2 := (h c.1 hlt).symm.trans (Memory.read_of_mem hm.1 hc)
  have hmem : (c.1, Memory.read m' c.1) ∈ m' := Memory.mem_of_read_ne (hread ▸ hlisted)
  rwa [hread] at hmem

/-- Settles O46: the two memories list the same cells, and both list them in rising order. -/
theorem canonicalMemoriesThatReadAlikeAreEqual : Obligations.CanonicalMemoriesThatReadAlikeAreEqual := by
  intro m m' hm hm' h
  have hcells : ∀ c, c ∈ m ↔ c ∈ m' := fun c =>
    ⟨Memory.mem_of_reads_alike hm h, Memory.mem_of_reads_alike hm' fun n hn => (h n hn).symm⟩
  have : Std.Irrefl (fun c d : Host.Cell => c.1 < d.1) := ⟨fun c => lt_irrefl c.1⟩
  have : Std.Antisymm (fun c d : Host.Cell => c.1 < d.1) := ⟨fun _ _ h h' => absurd h h'.asymm⟩
  exact hm.1.eq_of_mem_iff hm'.1 hcells

end Sys2Proof.Machine
end

section
/-! Where a run stores when no trap happens: memory then differs by RAM stores at listed addresses alone. From this follow
the frame of memory for every instruction and the protection of ROM in every step (R54, R56, R62). -/

namespace Sys2Proof.Machine

/-! ### Bytes written one after another -/

/-- An address that is none of those written keeps its byte. -/
theorem Memory.read_pokeAll_of_forall_ne {m : Memory} (hm : Memory.wf m) {stores : List (Word × Byte)} {a : Word}
    (h : ∀ q ∈ stores, q.1 ≠ a) : Memory.read (Memory.pokeAll m stores) a.toNat = Memory.read m a.toNat := by
  induction stores generalizing m with
  | nil => rfl
  | cons q stores ih =>
    obtain ⟨hq, hrest⟩ := List.forall_mem_cons.mp h
    have hne : a.toNat ≠ q.1.toNat := fun he => hq ((toNat_eq_iff a q.1).mp he).symm
    calc Memory.read (Memory.pokeAll (Memory.write m q.1.toNat q.2) stores) a.toNat
        = Memory.read (Memory.write m q.1.toNat q.2) a.toNat := ih (Memory.write_wf hm q.1.isLt q.2) hrest
      _ = Memory.read m a.toNat := by rw [Memory.read_write hm.1, if_neg hne]

theorem Memory.pokeAll_append (m : Memory) (stores stores' : List (Word × Byte)) :
    Memory.pokeAll m (stores ++ stores') = Memory.pokeAll (Memory.pokeAll m stores) stores' :=
  List.foldl_append

/-! ### The relation -/

/-- `t` is reached from `st` by a run that, where it makes no trap, changes memory by RAM stores at addresses of `addrs`
alone. -/
structure StoresWithin (addrs : List Word) (st t : State) : Prop where
  ran : Ran st t
  stored : NoTrap st t → ∃ stores : List (Word × Byte),
    (∀ q ∈ stores, q.1 ∈ addrs ∧ st.isRam q.1) ∧ t.memory = Memory.pokeAll st.memory stores

theorem StoresWithin.refl (addrs : List Word) (st : State) : StoresWithin addrs st st :=
  ⟨Ran.refl st, fun _ => ⟨[], by simp, rfl⟩⟩

theorem StoresWithin.trans {addrs addrs' : List Word} {st t u : State} (h : StoresWithin addrs st t)
    (h' : StoresWithin addrs' t u) : StoresWithin (addrs ++ addrs') st u := by
  refine ⟨h.ran.trans h'.ran, fun hn => ?_⟩
  obtain ⟨hn₁, hn₂⟩ := h.ran.noTrap_split h'.ran hn
  obtain ⟨stores, hin, hmem⟩ := h.stored hn₁
  obtain ⟨stores', hin', hmem'⟩ := h'.stored hn₂
  obtain ⟨hrom, hstart, hend, -, -⟩ := h.ran.sameConfiguration
  refine ⟨stores ++ stores', fun q hq => ?_, by rw [hmem', hmem, Memory.pokeAll_append]⟩
  rcases List.mem_append.mp hq with hq | hq
  · obtain ⟨ha, hram⟩ := hin q hq
    exact ⟨List.mem_append_left _ ha, hram⟩
  · obtain ⟨ha, hram⟩ := hin' q hq
    exact ⟨List.mem_append_right _ ha, (State.classify_congr hrom hstart hend q.1).symm.trans hram⟩

theorem StoresWithin.withWork {addrs : List Word} {st t : State} (h : StoresWithin addrs st t) (w : Regs) :
    StoresWithin addrs st (t.withWork w) := ⟨h.ran.withWork w, h.stored⟩

theorem StoresWithin.charge {addrs : List Word} {st t : State} (h : StoresWithin addrs st t) (n : Nat) :
    StoresWithin addrs st (t.charge n) := ⟨h.ran.charge n, h.stored⟩

/-- A run that stores to no address leaves memory as it was. -/
theorem StoresWithin.memory_eq {st t : State} (h : StoresWithin [] st t) (hn : NoTrap st t) :
    t.memory = st.memory := by
  obtain ⟨stores, hin, hmem⟩ := h.stored hn
  have hnil : stores = [] := List.eq_nil_iff_forall_not_mem.mpr fun q hq => List.not_mem_nil (hin q hq).1
  rw [hmem, hnil]
  rfl

/-- A byte that is no RAM byte at one of the addresses stays. -/
theorem StoresWithin.byteAt_eq {addrs : List Word} {st t : State} (h : StoresWithin addrs st t) (hn : NoTrap st t)
    (hm : Memory.wf st.memory) {a : Word} (ha : ¬ (a ∈ addrs ∧ st.isRam a)) : t.byteAt a = st.byteAt a := by
  obtain ⟨stores, hin, hmem⟩ := h.stored hn
  have hne : ∀ q ∈ stores, q.1 ≠ a := fun q hq he => ha (he ▸ hin q hq)
  rw [State.byteAt, hmem]
  exact Memory.read_pokeAll_of_forall_ne hm hne

/-! ### The shared operations -/

theorem memRead_stores (addr : Word) (st : State) : StoresWithin [] st (memRead addr st).2 := by
  refine ⟨memRead_ran addr st, fun hn => ⟨[], by simp, ?_⟩⟩
  rw [memRead_of_noTrap hn]
  rfl

theorem memWrite_stores (addr : Word) (v : Byte) (st : State) : StoresWithin [addr] st (memWrite addr v st) := by
  refine ⟨memWrite_ran addr v st, fun hn => ?_⟩
  obtain ⟨hram, hw⟩ | ⟨-, hw⟩ := memWrite_of_noTrap hn
  · exact ⟨[(addr, v)], by simpa using hram, by rw [hw]; rfl⟩
  · exact ⟨[], by simp, by rw [hw]; rfl⟩

theorem memReadPair_stores (lo hi : Word) (st : State) : StoresWithin [] st (memReadPair lo hi st).2 :=
  (memRead_stores lo st).trans (memRead_stores hi _)

theorem resolve_stores (e : Ea) (st : State) : StoresWithin [] st (resolve e st).2 := by
  refine ⟨resolve_ran e st, fun hn => ⟨[], by simp, ?_⟩⟩
  rw [resolve_of_noTrap hn]
  rfl

theorem loadedOperand_stores (o : Operand) (st : State) : StoresWithin [] st (loadedOperand o st).2 := by
  cases o with
  | mem e => exact (resolve_stores e st).trans (memRead_stores _ _)
  | _ => exact StoresWithin.refl [] st

theorem storeEa_stores (e : Ea) (v : Byte) (st : State) : StoresWithin [(resolve e st).1] st (storeEa e v st) :=
  (resolve_stores e st).trans (memWrite_stores _ v _)

theorem modifyEa_stores (f : Byte → Byte → Byte × Byte) (e : Ea) (st : State) :
    StoresWithin [(resolve e st).1] st (modifyEa f e st) :=
  (((resolve_stores e st).trans (memRead_stores _ _)).trans (memWrite_stores _ _ _)).withWork _

theorem push_stores (v : Byte) {st : State} {s : Byte} (hs : st.work.s = s) :
    StoresWithin [stackAddr s] st (push v st) :=
  hs ▸ (memWrite_stores (stackAddr st.work.s) v st).withWork _

theorem pull_stores (st : State) : StoresWithin [] st (pull st).2 :=
  ((StoresWithin.refl [] st).withWork _).trans (memRead_stores _ _)

theorem pushWord_stores (w : Word) (st : State) :
    StoresWithin [stackAddr st.work.s, stackAddr (st.work.s - 1)] st (pushWord w st) :=
  (push_stores _ rfl).trans (push_stores _ (by rw [push_work]))

theorem pullWord_stores (st : State) : StoresWithin [] st (pullWord st).2 := (pull_stores st).trans (pull_stores _)

theorem takeBreak_stores (st : State) :
    StoresWithin [stackAddr st.work.s, stackAddr (st.work.s - 1), stackAddr (st.work.s - 2)] st (takeBreak st) := by
  have hslot (w : Word) : (pushWord w st).work.s = st.work.s - 2 := by
    rw [pushWord_work]
    bv_omega
  refine ((((pushWord_stores _ st).withWork _).trans (push_stores _ ?_)).trans (memReadPair_stores _ _ _)).withWork _
  exact hslot _

theorem returnFromBreak_stores (st : State) : StoresWithin [] st (returnFromBreak st) :=
  (((pull_stores st).withWork _).trans (pullWord_stores _)).withWork _

theorem branchOperand_stores (cond : Bool) (o : Operand) (st : State) :
    StoresWithin [] st (branchOperand cond o st) := by
  unfold branchOperand
  split
  · cases cond
    · exact StoresWithin.refl [] st
    · exact ((StoresWithin.refl [] st).withWork _).charge _
  · exact StoresWithin.refl [] st

theorem jumpOperand_stores (o : Operand) (st : State) : StoresWithin [] st (jumpOperand o st) := by
  cases o with
  | mem e => exact (resolve_stores e st).withWork _
  | _ => exact StoresWithin.refl [] st

theorem callOperand_stores (o : Operand) (st : State) :
    StoresWithin [stackAddr st.work.s, stackAddr (st.work.s - 1)] st (callOperand o st) := by
  unfold callOperand
  split
  · exact (pushWord_stores _ st).withWork _
  · exact StoresWithin.refl _ st

/-! ### Every instruction -/

/-- Without a trap an instruction stores to RAM, at the addresses `storedAddrs` lists, and nowhere else. -/
theorem exec_stores {i : Instr} {st t : State} (h : exec i st = .next t) : StoresWithin (storedAddrs i st) st t := by
  rw [eq_effect_of_exec h]
  unfold storedAddrs
  generalize i.mnemonic = m
  generalize i.operand = o
  cases m
  case ora | and | eor | bit | cmp | cpx | cpy | adc | sbc | lda | ldx | ldy =>
    exact (loadedOperand_stores o st).withWork _
  case asl | lsr | rol | ror | inc | dec =>
    cases o with
    | mem e => exact modifyEa_stores _ e st
    | acc => exact (StoresWithin.refl [] st).withWork _
    | imm | implied => exact StoresWithin.refl [] st
  case sta | stx | sty =>
    cases o with
    | mem e => exact storeEa_stores e _ st
    | _ => exact StoresWithin.refl [] st
  case pha | php => exact push_stores _ rfl
  case pla | plp => exact (pull_stores st).withWork _
  case jsr => exact callOperand_stores o st
  case rts => exact (pullWord_stores st).withWork _
  case brk => exact takeBreak_stores st
  case rti => exact returnFromBreak_stores st
  case bpl | bmi | bvc | bvs | bcc | bcs | bne | beq => exact branchOperand_stores _ o st
  case jmp => exact jumpOperand_stores o st
  case nop => exact StoresWithin.refl [] st
  all_goals exact (StoresWithin.refl [] st).withWork _

/-- Settles O48: the stores of `exec_stores` leave every other byte, and no stores leave memory. -/
theorem storesOnlyToItsAddresses : Obligations.StoresOnlyToItsAddresses := by
  intro i st t h hn
  have hstores := exec_stores h
  refine ⟨fun hnil a => ?_, fun hm a ha => hstores.byteAt_eq hn hm fun hin => ha hin.1⟩
  rw [hnil] at hstores
  rw [State.byteAt, hstores.memory_eq hn, State.byteAt]

/-! ### Every step -/

theorem fetchByte_stores (st : State) : StoresWithin [] st (fetchByte st).2 :=
  (memRead_stores st.work.pc st).withWork _

theorem fetchOperands_stores (row : TableRow) (st : State) : StoresWithin [] st (fetchOperands row st).state := by
  have hcharge : StoresWithin [] st (st.charge row.cycles) := (StoresWithin.refl [] st).charge _
  unfold fetchOperands
  split
  · exact hcharge
  · exact hcharge.trans (fetchByte_stores _)
  · exact (hcharge.trans (fetchByte_stores _)).trans (fetchByte_stores _)

theorem fetchInstr_stores (st : State) : StoresWithin [] st (fetchInstr st).state := by
  unfold fetchInstr
  dsimp only
  split
  · exact fetchByte_stores st
  · exact (fetchByte_stores st).trans (fetchOperands_stores _ _)

/-- An iteration of the loop stores as its instruction does, or exits the call after a fetch that stores nothing. -/
theorem loopStep_stores {ticks : Int} {st t : State} (h : loopStep ticks st = .next t) :
    ∃ addrs, StoresWithin addrs st t ∨ ∃ status u, StoresWithin addrs st u ∧ t = exitCall ticks status u := by
  obtain ⟨status, -, ht⟩ | ⟨u, -, hfetch, ht⟩ | ⟨i, u, -, hfetch, hexec⟩ := loopStep_cases h
  · exact ⟨[], .inr ⟨status, st, StoresWithin.refl [] st, ht⟩⟩
  · have hu : StoresWithin [] st u := by simpa only [hfetch, Fetched.state] using fetchInstr_stores st
    exact ⟨[], .inr ⟨_, u, hu, ht⟩⟩
  · have hu : StoresWithin [] st u := by simpa only [hfetch, Fetched.state] using fetchInstr_stores st
    exact ⟨_, .inl (hu.trans (exec_stores hexec))⟩

/-- Settles O53: every store of a step without a trap is to a RAM address, and a ROM address is none. -/
theorem stepsNeverChangeRom : Obligations.StepsNeverChangeRom := by
  intro st t a hm hstep hn hrom
  have hnotRam : ∀ addrs : List Word, ¬ (a ∈ addrs ∧ st.isRam a) := by
    rintro addrs ⟨-, hram⟩
    cases hrom.symm.trans hram
  obtain ⟨-, rfl⟩ | ⟨ticks, -, -, rfl⟩ | ⟨ticks, -, hloop⟩ := step_cases hstep
  · rfl
  · rfl
  · obtain ⟨addrs, hstores | ⟨status, u, hstores, rfl⟩⟩ := loopStep_stores hloop
    · exact hstores.byteAt_eq hn hm (hnotRam addrs)
    · exact hstores.byteAt_eq (t := u) hn hm (hnotRam addrs)

end Sys2Proof.Machine
end

section
/-! Every step answers a next state, but for the entry of a call that is not configured (R61, R250). -/

namespace Sys2Proof.Machine

theorem loopStep_answers (ticks : Int) (st : State) : ∃ t, loopStep ticks st = .next t := by
  unfold loopStep
  split
  · exact ⟨_, rfl⟩
  · split
    · exact ⟨_, rfl⟩
    · exact ⟨_, exec_eq _ _⟩

/-- Settles O14, by the phase. -/
theorem everyStepAnswersANextState : Obligations.EveryStepAnswersANextState := by
  intro st
  unfold step
  cases st.phase with
  | idle => exact .inl ⟨st, rfl⟩
  | entering ticks =>
    by_cases hl : st.launchable
    · exact .inl ⟨enterCall ticks st, if_pos hl⟩
    · exact .inr ⟨ticks, rfl, hl⟩
  | running ticks => exact .inl (loopStep_answers ticks st)

end Sys2Proof.Machine
end

section
/-! The dispatch table row by row (R95, R230): every instruction has its row, a row builds instructions of its own opcode byte
and mnemonic with the operand its mode makes of the bytes, and the opcode bytes without a row are the illegal ones. From this
follows what the decoder answers, and that it and the encoder are inverse to each other. -/

namespace Sys2Proof.Laws

/-! ### The row of an instruction -/

/-- Every instruction has its row in the dispatch table. -/
theorem TableEntry.statement (i : Instr) : TableEntry.Statement i :=
  open TableEntry in Instr.casesOn i
    oraIndX oraZp oraImm oraAbs oraIndY oraZpX oraAbsY oraAbsX andIndX andZp andImm andAbs andIndY andZpX andAbsY
    andAbsX eorIndX eorZp eorImm eorAbs eorIndY eorZpX eorAbsY eorAbsX aslZp aslAcc aslAbs aslZpX aslAbsX lsrZp lsrAcc
    lsrAbs lsrZpX lsrAbsX rolZp rolAcc rolAbs rolZpX rolAbsX rorZp rorAcc rorAbs rorZpX rorAbsX incZp incAbs incZpX
    incAbsX decZp decAbs decZpX decAbsX bitZp bitAbs cmpIndX cmpZp cmpImm cmpAbs cmpIndY cmpZpX cmpAbsY cmpAbsX cpxImm
    cpxZp cpxAbs cpyImm cpyZp cpyAbs adcIndX adcZp adcImm adcAbs adcIndY adcZpX adcAbsY adcAbsX sbcIndX sbcZp sbcImm
    sbcAbs sbcIndY sbcZpX sbcAbsY sbcAbsX pha pla php plp jsr rts brk rti bpl bmi bvc bvs bcc bcs bne beq jmpAbs
    jmpInd tax txa tay tya tsx txs inx iny dex dey ldaIndX ldaZp ldaImm ldaAbs ldaIndY ldaZpX ldaAbsY ldaAbsX ldxImm
    ldxZp ldxAbs ldxZpY ldxAbsY ldyImm ldyZp ldyAbs ldyZpX ldyAbsX staIndX staZp staAbs staIndY staZpX staAbsY staAbsX
    stxZp stxAbs stxZpY styZp styAbs styZpX clc sec cli sei clv cld sed nop

/-! ### The operand a mode makes of its bytes -/

theorem operandBytes_le_two (k : Mode) : k.operandBytes ≤ 2 := by
  cases k <;> decide

/-- At most two bytes are given by their first, their second and their number. -/
theorem take_getD_getD {l : List Byte} (h : l.length ≤ 2) : [l.getD 0 0, l.getD 1 0].take l.length = l := by
  match l, h with
  | [], _ | [_], _ | [_, _], _ => rfl

/-- The operand that a mode makes of the operand bytes 1 and 2 (R82); a byte the mode does not have is not looked at. -/
def operandOf : Mode → Byte → Byte → Operand
  | .imm, b, _ => .imm b
  | .zp, b, _ => .mem (.zp b)
  | .zpX, b, _ => .mem (.zpX b)
  | .zpY, b, _ => .mem (.zpY b)
  | .abs, lo, hi => .mem (.abs (wordOf hi lo))
  | .absX, lo, hi => .mem (.absX (wordOf hi lo))
  | .absY, lo, hi => .mem (.absY (wordOf hi lo))
  | .indX, b, _ => .mem (.indX b)
  | .indY, b, _ => .mem (.indY b)
  | .ind, lo, hi => .mem (.ind (wordOf hi lo))
  | .rel, b, _ => .mem (.rel b)
  | .acc, _, _ => .acc
  | .implied, _, _ => .implied

/-- The operand holds as many of the two bytes as the mode has, a word's low byte first (R80, R82). -/
theorem operandOf_bytes (k : Mode) (b1 b2 : Byte) : (operandOf k b1 b2).bytes = [b1, b2].take k.operandBytes := by
  cases k with
  | abs | absX | absY | ind => simp [operandOf, Operand.bytes, Ea.bytes, Mode.operandBytes]
  | _ => rfl

/-- An operand is what its mode makes of its bytes. -/
theorem operandOf_mode_bytes (o : Operand) : operandOf o.mode (o.bytes.getD 0 0) (o.bytes.getD 1 0) = o := by
  cases o with
  | mem e =>
    cases e with
    | abs w => exact congrArg (fun v => Operand.mem (.abs v)) (wordOf_bytes w)
    | absX w => exact congrArg (fun v => Operand.mem (.absX v)) (wordOf_bytes w)
    | absY w => exact congrArg (fun v => Operand.mem (.absY v)) (wordOf_bytes w)
    | ind w => exact congrArg (fun v => Operand.mem (.ind v)) (wordOf_bytes w)
    | _ => rfl
  | _ => rfl

/-! ### What a row builds -/

/-- All 151 rows at once, for any two operand bytes: the opcode byte and the form of what the row builds. -/
theorem dispatchTable_build (b1 b2 : Byte) :
    dispatchTable.map (fun row => ((row.build b1 b2).opcode, (row.build b1 b2).form)) =
      dispatchTable.map fun row => (row.opcode, ⟨row.mnemonic, operandOf row.mode b1 b2⟩) := by
  rfl

theorem build_opcode_form {row : TableRow} (h : row ∈ dispatchTable) (b1 b2 : Byte) :
    (row.build b1 b2).opcode = row.opcode ∧ (row.build b1 b2).form = ⟨row.mnemonic, operandOf row.mode b1 b2⟩ :=
  Prod.mk.inj (List.map_inj_left.mp (dispatchTable_build b1 b2) row h)

/-- What a row builds is encoded as the row's opcode byte and as many operand bytes as its mode has. -/
theorem encode_build {row : TableRow} (h : row ∈ dispatchTable) (b1 b2 : Byte) :
    encode (row.build b1 b2) = row.opcode :: [b1, b2].take row.mode.operandBytes := by
  obtain ⟨hop, hform⟩ := build_opcode_form h b1 b2
  have hoperand : (row.build b1 b2).operand = operandOf row.mode b1 b2 := congrArg Form.operand hform
  rw [encode, hop, hoperand, operandOf_bytes]

/-! ### The opcode bytes without a row -/

/-- Those of the bytes that stand in row `k` of the map of R95: whose high nibble is `k`. -/
def inMapRow (k : Nat) (bytes : List Byte) : List Nat := (bytes.map BitVec.toNat).filter (· / 16 = k)

theorem mem_inMapRow {op : Byte} {bytes : List Byte} : op.toNat ∈ inMapRow (op.toNat / 16) bytes ↔ op ∈ bytes := by
  simp [inMapRow, BitVec.toNat_inj]

/-- Row by row of the map: a byte is listed in R97 exactly when the table has no row for it. -/
theorem mapRow_illegal_iff : ∀ hi lo : Fin 16,
    16 * hi.val + lo.val ∈ inMapRow hi Machine.illegalOpcodes ↔
      16 * hi.val + lo.val ∉ inMapRow hi (dispatchTable.map TableRow.opcode) := by
  decide

theorem tableEntry_eq_none_iff (op : Byte) : tableEntry op = none ↔ op ∈ Machine.illegalOpcodes := by
  have hsplit := mapRow_illegal_iff ⟨op.toNat / 16, by omega⟩ ⟨op.toNat % 16, by omega⟩
  rw [Nat.div_add_mod, mem_inMapRow, mem_inMapRow] at hsplit
  simp [hsplit, tableEntry]

/-! ### What the decoder answers -/

/-- Where the opcode byte has a row and its mode's operand bytes follow, the decoder answers what the row builds. -/
theorem decode_of_row {op : Byte} {row : TableRow} (hrow : tableEntry op = some row) {operands : List Byte}
    (hlen : operands.length = row.mode.operandBytes) (rest : List Byte) :
    decode (op :: (operands ++ rest)) = .ok (row.build (operands.getD 0 0) (operands.getD 1 0), rest) := by
  have hle : operands.length ≤ 2 := hlen ▸ operandBytes_le_two row.mode
  simp only [decode, hrow, ← hlen]
  match operands, hle with
  | [], _ | [_], _ | [_, _], _ => rfl

/-- The decoder answers nowhere else. -/
theorem exists_row_of_decode {bytes rest : List Byte} {i : Instr} (h : decode bytes = .ok (i, rest)) :
    ∃ op row operands, tableEntry op = some row ∧ operands.length = row.mode.operandBytes ∧
      bytes = op :: (operands ++ rest) ∧ i = row.build (operands.getD 0 0) (operands.getD 1 0) := by
  unfold decode at h
  split at h
  · cases h
  · rename_i op tail
    split at h
    · cases h
    · rename_i row hrow
      split at h
      case h_1 hk =>
        cases h
        exact ⟨op, row, [], hrow, hk.symm, rfl, rfl⟩
      case h_2 b1 _ hk =>
        cases h
        exact ⟨op, row, [b1], hrow, hk.symm, rfl, rfl⟩
      case h_3 b1 b2 _ hk =>
        cases h
        exact ⟨op, row, [b1, b2], hrow, hk.symm, rfl, rfl⟩
      case h_4 => cases h

theorem decode_illegal {op : Byte} (h : tableEntry op = none) (rest : List Byte) :
    decode (op :: rest) = .error (.illegalOpcode op) := by
  simp only [decode, h]

/-- Settles O2: the instruction's row and operand bytes are what the decoder looks for. -/
theorem decodeOfEncodeGivesTheInstruction : Obligations.DecodeOfEncodeGivesTheInstruction := by
  intro i rest
  obtain ⟨row, hrow, hmode, -, hbuild⟩ := TableEntry.statement i
  have hlen : i.operand.bytes.length = row.mode.operandBytes := by rw [operand_bytes_length, hmode]
  calc decode (encode i ++ rest)
      = .ok (row.build (i.operand.bytes.getD 0 0) (i.operand.bytes.getD 1 0), rest) := decode_of_row hrow hlen rest
    _ = .ok (i, rest) := by rw [hbuild]

/-- Settles O3: the row that the decoder used builds an instruction of these bytes. -/
theorem encodeOfDecodeGivesTheBytes : Obligations.EncodeOfDecodeGivesTheBytes := by
  intro bytes rest i h
  obtain ⟨op, row, operands, hrow, hlen, rfl, rfl⟩ := exists_row_of_decode h
  have hle : operands.length ≤ 2 := hlen ▸ operandBytes_le_two row.mode
  rw [encode_build (tableEntry_mem hrow), tableEntry_opcode hrow, ← hlen, take_getD_getD hle, List.cons_append]

/-- Settles O1: each word is what `encode` gives the instruction. -/
theorem wordsOfTheMapDecode : Obligations.WordsOfTheMapDecode :=
  have round := decodeOfEncodeGivesTheInstruction
  ⟨round (.ldaImm 0x42) [], round (.staZp 0x10) [], round (.jmpInd 0x10FF) [], round (.rorAbsX 0x3000) [0xEA],
    round (.bne 0xFE) []⟩

/-- Settles O5: an illegal byte has no row; any other has one, and two bytes are enough for its operand. -/
theorem illegalBytesAreThoseListed : Obligations.IllegalBytesAreThoseListed := by
  intro op b1 b2
  refine ⟨fun hill => decode_illegal ((tableEntry_eq_none_iff op).mpr hill), fun hlegal => ?_⟩
  obtain ⟨row, hrow⟩ := Option.ne_none_iff_exists'.mp (mt (tableEntry_eq_none_iff op).mp hlegal)
  have hlen : ([b1, b2].take row.mode.operandBytes).length = row.mode.operandBytes :=
    List.length_take_of_le (operandBytes_le_two row.mode)
  have hdecode := decode_of_row hrow hlen ([b1, b2].drop row.mode.operandBytes)
  rw [List.take_append_drop] at hdecode
  exact ⟨_, _, hdecode⟩

/-! ### The forms -/

/-- Each mode of a mnemonic's rule has its row in the table. -/
theorem modes_have_rows (m : Mnemonic) :
    (m.modes.all fun k => dispatchTable.any fun row => row.mnemonic == m && row.mode == k) = true := by
  cases m <;> rfl

/-- Settles O4: an instruction is well formed, and a well-formed form is what its row builds from the form's own bytes. -/
theorem formIsAnInstructionIffWellFormed : Obligations.FormIsAnInstructionIffWellFormed := by
  rintro ⟨m, o⟩
  constructor
  · intro hwf
    have hmode : o.mode ∈ m.modes := List.contains_iff_mem.mp hwf
    obtain ⟨row, hrow, hm⟩ := List.any_eq_true.mp (List.all_eq_true.mp (modes_have_rows m) _ hmode)
    simp only [Bool.and_eq_true, beq_iff_eq] at hm
    obtain ⟨rfl, hk⟩ := hm
    obtain ⟨-, hform⟩ := build_opcode_form hrow (o.bytes.getD 0 0) (o.bytes.getD 1 0)
    exact ⟨_, by rw [hform, hk, operandOf_mode_bytes]⟩
  · rintro ⟨i, hi⟩
    exact hi ▸ Instr.wellFormed i

/-- Settles O6: the opcode byte selects the row, and the row's mode the number of operand bytes. -/
theorem opcodeByteFixesModeAndLength : Obligations.OpcodeByteFixesModeAndLength := by
  intro i
  obtain ⟨row, hrow, hmode, hmn, -⟩ := TableEntry.statement i
  refine ⟨rfl, operand_bytes_length _, operandBytes_le_two _, ?_, fun b => ?_, fun w => ?_, ⟨row, hrow, hmode, hmn⟩,
    fun j hj => ?_⟩
  · rintro (h | h) <;> rw [encode, h] <;> rfl
  · rintro (h | h | h | h | h | h | h) <;> rw [encode, h] <;> rfl
  · rintro (h | h | h | h) <;> rw [encode, h] <;> rfl
  · obtain ⟨row', hrow', hmode', hmn', -⟩ := TableEntry.statement j
    obtain rfl : row' = row := Option.some.inj (by rw [← hrow', hj, hrow])
    have hk : j.operand.mode = i.operand.mode := hmode'.symm.trans hmode
    refine ⟨hmn'.symm.trans hmn, hk, ?_⟩
    simp only [Instr.length, encode, List.length_cons, operand_bytes_length, hk]

end Sys2Proof.Laws
end

section
/-! The addressing modes (R84 to R91): the address each mode without a pointer computes, as a number, and the pointer modes as
reads of a word, low byte first, at the operand's number (R59, R88 to R90). -/

namespace Sys2Proof.Machine

/-! ### Addresses as numbers -/

theorem toNat_zext16 (b : Byte) : (zext16 b).toNat = b.toNat := by
  simp only [zext16, BitVec.toNat_setWidth]
  omega

theorem zext16_eq_ofNat (b : Byte) : zext16 b = BitVec.ofNat 16 b.toNat := (BitVec.ofNat_toNat 16 b).symm

/-- A word is its low byte and 256 times its high byte (R12). -/
theorem toNat_wordOf (hi lo : Byte) : (wordOf hi lo).toNat = lo.toNat + 256 * hi.toNat := by
  rw [wordOf, BitVec.toNat_append, ← Nat.shiftLeft_add_eq_or_of_lt lo.isLt, Nat.shiftLeft_eq]
  omega

/-- An indexed address adds the index register modulo 2^16 (R87). -/
theorem toNat_add_zext16 (w : Word) (b : Byte) : (w + zext16 b).toNat = (w.toNat + b.toNat) % 65536 := by
  rw [BitVec.toNat_add, toNat_zext16]

/-- A displacement is added modulo 2^16, whatever its sign (R91). -/
theorem toNat_add_ofInt (w : Word) (d : Int) : ((w + BitVec.ofInt 16 d).toNat : Int) = (w.toNat + d) % 65536 := by
  rw [BitVec.toNat_add, BitVec.toNat_ofInt]
  omega

/-- Settles O42, mode by mode. -/
theorem directModesResolve : Obligations.DirectModesResolve := by
  intro st b w
  have hstate : ∀ e ∈ [Ea.zp b, .zpX b, .zpY b, .abs w, .absX w, .absY w, .rel b], (resolve e st).2 = st := by
    simp [resolve]
  refine ⟨toNat_zext16 b, ?_, ?_, rfl, toNat_add_zext16 w _, toNat_add_zext16 w _, toNat_add_ofInt _ _, hstate⟩
  · exact (toNat_zext16 _).trans (BitVec.toNat_add b _)
  · exact (toNat_zext16 _).trans (BitVec.toNat_add b _)

/-! ### Reading a word -/

/-- The second address of a word read is the next number modulo 2^16. -/
theorem memReadWord_ofNat (n : Nat) (st : State) :
    memReadWord (BitVec.ofNat 16 n) st = memReadPair (BitVec.ofNat 16 n) (BitVec.ofNat 16 (n + 1)) st := by
  rw [memReadWord, BitVec.ofNat_add]
  rfl

/-- Where neither byte is special a word read answers memory's word and changes nothing. -/
theorem memReadWord_plain {n : Nat} {st : State} (hlo : ¬ st.isSpecial (BitVec.ofNat 16 n))
    (hhi : ¬ st.isSpecial (BitVec.ofNat 16 (n + 1))) :
    (memReadWord (BitVec.ofNat 16 n) st).1.toNat =
        (Memory.read st.memory (n % 65536)).toNat + 256 * (Memory.read st.memory ((n + 1) % 65536)).toNat ∧
      (memReadWord (BitVec.ofNat 16 n) st).2 = st := by
  simp only [memReadWord_ofNat, memReadPair, memRead_plain hlo, memRead_plain hhi, toNat_wordOf, State.byteAt,
    BitVec.toNat_ofNat, Nat.reducePow, and_self]

/-! ### The pointer modes -/

/-- The pointer of (zp,X) is `b + x`, not masked to page 0 (R88, D23). -/
theorem resolve_indX (b : Byte) (st : State) :
    resolve (.indX b) st = memReadWord (BitVec.ofNat 16 (b.toNat + st.work.x.toNat)) st := by
  rw [BitVec.ofNat_add, ← zext16_eq_ofNat, ← zext16_eq_ofNat]
  rfl

/-- The pointer of (zp),Y is the operand byte; `y` is added to the word there (R89). -/
theorem resolve_indY (b : Byte) (st : State) :
    resolve (.indY b) st = ((memReadWord (BitVec.ofNat 16 b.toNat) st).1 + zext16 st.work.y,
      (memReadWord (BitVec.ofNat 16 b.toNat) st).2) := by
  rw [← zext16_eq_ofNat]
  rfl

/-- The pointer of (abs) is the operand word (R90). -/
theorem resolve_ind (w : Word) (st : State) : resolve (.ind w) st = memReadWord (BitVec.ofNat 16 w.toNat) st := by
  rw [BitVec.ofNat_toNat, BitVec.setWidth_eq]
  rfl

/-- Settles O43: each pointer mode is a word read at the operand's number, and a word read is two reads. -/
theorem pointerModesResolve : Obligations.PointerModesResolve := by
  intro st b w word quiet
  refine ⟨fun ⟨hlo, hhi⟩ => ?_, fun ⟨hlo, hhi⟩ => ?_, fun ⟨hlo, hhi⟩ => ?_, ⟨?_, ?_, ?_⟩, fun e => rfl⟩
  · rw [resolve_indX]
    exact memReadWord_plain hlo hhi
  · rw [resolve_indY]
    obtain ⟨hword, hst⟩ := memReadWord_plain hlo hhi
    exact ⟨by rw [toNat_add_zext16, hword], hst⟩
  · rw [resolve_ind]
    exact memReadWord_plain hlo hhi
  · rw [resolve_indX, memReadWord_ofNat]
    rfl
  · rw [resolve_indY, memReadWord_ofNat]
    rfl
  · rw [resolve_ind, memReadWord_ofNat]
    rfl

end Sys2Proof.Machine
end

section
/-! The logical operations, the shifts and rotates, INC, DEC and BIT (R110 to R119): each core's result with its flag
byte written out bit by bit, and the next state of a form from its core. -/

namespace Sys2Proof.Machine

/-! ### From a form to its next state -/

/-- An instruction of a given form answers what its effect on that form is. -/
theorem exec_of_effect {i : Instr} {m : Mnemonic} {o : Operand} {st t : State} (hm : i.mnemonic = m)
    (ho : i.operand = o) (h : effect m o st = t) : exec i st = .next t := by
  rw [exec_eq, hm, ho, h]

/-- An assignment to `a` after an access that kept the working registers: it computes with the old `a` and `p`. -/
theorem assignA_of_work_eq (g : Byte → Byte) {st t : State} (h : t.work = st.work) :
    assignA (g t.work.a) t =
      { t with work := { st.work with a := g st.work.a, p := flagsNZ (g st.work.a) st.work.p } } := by
  rw [assignA_eq, h, setznSetsOnlyZeroAndNegative]
  rfl

/-- A memory form reads the byte once, writes the core's result to the same address and sets its flags (R68). -/
theorem modifyOperand_mem_eq {f : Byte → Byte → Byte × Byte} {e : Ea} {st : State} {r q : Byte}
    (h : f (loadEa e st).1 st.work.p = (r, q)) :
    modifyOperand f (.mem e) st =
      { memWrite (resolve e st).1 r (loadEa e st).2 with work := { st.work with p := q } } := by
  rw [loadEa] at h
  simp only [modifyOperand, modifyEa, memRead_work, resolve_work, h, State.setP_eq, memWrite_work]
  rfl

/-- The accumulator form does the same to `a`, without an access (R92). -/
theorem modifyOperand_acc_eq {f : Byte → Byte → Byte × Byte} {st : State} {r q : Byte}
    (h : f st.work.a st.work.p = (r, q)) :
    modifyOperand f .acc st = { st with work := { st.work with a := r, p := q } } := by
  simp only [modifyOperand, modifyAcc, h]
  rfl

/-! ### The cores -/

/-- C first, then Z and N by the result: the shifts' flag byte, flag by flag. -/
theorem setzn_putC_eq (r : Byte) (c : Bool) (p : Byte) : setzn r (putC c p) = flagsNZC r c p := by
  apply flags_ext <;> simp [flagsNZC, flagsNVZC]

theorem bitFlags_eq (a m p : Byte) :
    bitFlags a m p = flagsNVZC (m.getLsbD 7) (m.getLsbD 6) (m &&& a = 0) (flagC p) p := by
  apply flags_ext <;> simp [bitFlags, flagsNVZC]

/-- The prior carry as bit 0 of a byte. -/
theorem carry_at_bit0 (c : Bool) : (if c then 0x01 else 0x00 : Byte) = (BitVec.ofBool c).setWidth 8 := by
  cases c <;> rfl

/-- The prior carry as bit 7 of a byte. -/
theorem carry_at_bit7 (c : Bool) : (if c then 0x80 else 0x00 : Byte) = (BitVec.ofBool c).setWidth 8 <<< 7 := by
  cases c <;> rfl

theorem aslCore_eq (v p : Byte) : aslCore v p = (v <<< 1, flagsNZC (v <<< 1) (v.getLsbD 7) p) :=
  congrArg (Prod.mk _) (setzn_putC_eq _ _ p)

theorem lsrCore_eq (v p : Byte) : lsrCore v p = (v >>> 1, flagsNZC (v >>> 1) (v.getLsbD 0) p) :=
  congrArg (Prod.mk _) (setzn_putC_eq _ _ p)

theorem rolCore_eq (v p : Byte) :
    rolCore v p = (v <<< 1 ||| (BitVec.ofBool (flagC p)).setWidth 8,
      flagsNZC (v <<< 1 ||| (BitVec.ofBool (flagC p)).setWidth 8) (v.getLsbD 7) p) := by
  rw [rolCore, carry_at_bit0, setzn_putC_eq]

theorem rorCore_eq (v p : Byte) :
    rorCore v p = (v >>> 1 ||| (BitVec.ofBool (flagC p)).setWidth 8 <<< 7,
      flagsNZC (v >>> 1 ||| (BitVec.ofBool (flagC p)).setWidth 8 <<< 7) (v.getLsbD 0) p) := by
  rw [rorCore, carry_at_bit7, setzn_putC_eq]

theorem incCore_eq (v p : Byte) : incCore v p = (v + 1, flagsNZ (v + 1) p) :=
  congrArg (Prod.mk _) (setznSetsOnlyZeroAndNegative _ p)

theorem decCore_eq (v p : Byte) : decCore v p = (v - 1, flagsNZ (v - 1) p) :=
  congrArg (Prod.mk _) (setznSetsOnlyZeroAndNegative _ p)

/-! ### The rules -/

/-- Settles O19: in every form `a` is assigned the result on the loaded byte. -/
theorem logicalOperationsResult : Obligations.LogicalOperationsResult := by
  refine ⟨fun st b => ⟨?_, ?_, ?_⟩, fun i e st ho => ?_, fun b w => ⟨rfl, rfl, rfl⟩⟩
  · exact exec_of_effect rfl rfl (assignA_of_work_eq (· ||| b) rfl)
  · exact exec_of_effect rfl rfl (assignA_of_work_eq (· &&& b) rfl)
  · exact exec_of_effect rfl rfl (assignA_of_work_eq (· ^^^ b) rfl)
  · have hwork := loadEa_work e st
    exact ⟨fun hm => exec_of_effect hm ho (assignA_of_work_eq (· ||| (loadEa e st).1) hwork),
      fun hm => exec_of_effect hm ho (assignA_of_work_eq (· &&& (loadEa e st).1) hwork),
      fun hm => exec_of_effect hm ho (assignA_of_work_eq (· ^^^ (loadEa e st).1) hwork)⟩

/-- Settles O20: each form is a read-modify-write by its core. -/
theorem readModifyWriteResult : Obligations.ReadModifyWriteResult := by
  refine ⟨fun st => ⟨?_, ?_, ?_⟩, fun i e st ho => ?_, fun b w => ⟨rfl, rfl, rfl, rfl, rfl⟩⟩
  · exact exec_of_effect rfl rfl (modifyOperand_acc_eq (lsrCore_eq _ _))
  · exact exec_of_effect rfl rfl (modifyOperand_acc_eq (rolCore_eq _ _))
  · exact exec_of_effect rfl rfl (modifyOperand_acc_eq (rorCore_eq _ _))
  · exact ⟨fun hm => exec_of_effect hm ho (modifyOperand_mem_eq (lsrCore_eq _ _)),
      fun hm => exec_of_effect hm ho (modifyOperand_mem_eq (rolCore_eq _ _)),
      fun hm => exec_of_effect hm ho (modifyOperand_mem_eq (rorCore_eq _ _)),
      fun hm => exec_of_effect hm ho (modifyOperand_mem_eq (incCore_eq _ _)),
      fun hm => exec_of_effect hm ho (modifyOperand_mem_eq (decCore_eq _ _))⟩

/-- Settles O21: both forms are a read-modify-write by `aslCore`. -/
theorem shiftLeftResult : Obligations.ShiftLeftResult :=
  ⟨fun _ => exec_of_effect rfl rfl (modifyOperand_acc_eq (aslCore_eq _ _)),
    fun _ _ _ hm ho => exec_of_effect hm ho (modifyOperand_mem_eq (aslCore_eq _ _)),
    fun _ _ => rfl⟩

/-- Settles O22: BIT writes `bitFlags` of the loaded byte and the old registers. -/
theorem bitTestResult : Obligations.BitTestResult := by
  refine ⟨fun i e st hm ho => exec_of_effect hm ho ?_, fun b w => rfl⟩
  simp only [effect, loadedOperand, bitOp, loadEa_work, State.setP_eq, bitFlags_eq]
  rfl

end Sys2Proof.Machine
end

section
/-! Compare (R130 to R133): the flags of a register and an operand byte from their exact difference, and the flag write
after the operand's load. -/

namespace Sys2Proof.Machine

/-- The low byte of the exact difference is the difference modulo 2^8 (R130). -/
theorem ofInt_toNat_sub_toNat (r m : Byte) : BitVec.ofInt 8 (r.toNat - m.toNat) = r - m := by
  apply BitVec.eq_of_toNat_eq
  rw [BitVec.toNat_ofInt, BitVec.toNat_sub]
  omega

theorem compareFlags_eq (r m p : Byte) :
    compareFlags r m p = flagsNVZC ((r - m).getLsbD 7) (flagV p) (r = m) (m.toNat ≤ r.toNat) p := by
  have hzero : r - m = 0 ↔ r = m := sub_eq_zero
  have hcarry : (0 : Int) ≤ r.toNat - m.toNat ↔ m.toNat ≤ r.toNat := by omega
  simp only [compareFlags, ofInt_toNat_sub_toNat, setzn_putC_eq, flagsNZC, hzero, hcarry]

/-- A comparison of `reg` after an access that kept the working registers: it reads the old `reg` and `p`. -/
theorem setP_compareFlags_of_work_eq (reg : Regs → Byte) (m : Byte) {st t : State} (h : t.work = st.work) :
    t.setP (compareFlags (reg t.work) m t.work.p) = { t with work := { st.work with
      p := flagsNVZC ((reg st.work - m).getLsbD 7) (flagV st.work.p) (reg st.work = m) (m.toNat ≤ (reg st.work).toNat)
        st.work.p } } := by
  rw [State.setP_eq, h, compareFlags_eq]
  rfl

/-- Settles O23: in every form the flags compare the old register with the loaded byte. -/
theorem compareResult : Obligations.CompareResult := by
  refine ⟨fun st b => ⟨?_, ?_, ?_⟩, fun i e st ho => ?_, fun b w => ⟨rfl, rfl, rfl⟩⟩
  · exact exec_of_effect rfl rfl (setP_compareFlags_of_work_eq Regs.a b rfl)
  · exact exec_of_effect rfl rfl (setP_compareFlags_of_work_eq Regs.x b rfl)
  · exact exec_of_effect rfl rfl (setP_compareFlags_of_work_eq Regs.y b rfl)
  · have hflags (reg : Regs → Byte) := setP_compareFlags_of_work_eq reg (loadEa e st).1 (loadEa_work e st)
    exact ⟨fun hm => exec_of_effect hm ho (hflags Regs.a), fun hm => exec_of_effect hm ho (hflags Regs.x),
      fun hm => exec_of_effect hm ho (hflags Regs.y)⟩

end Sys2Proof.Machine
end

section
/-! ADC and SBC (R140 to R146): a byte's nibbles and sign as numbers, the binary adder as an exact sum and, on the
complemented operand, as an exact difference; the decimal cores on the nibbles' numbers, and on decimal bytes. -/

namespace Sys2Proof.Machine

/-! ### Bytes as numbers -/

theorem toNat_lowNibble (b : Byte) : (b &&& 0x0F).toNat = b.toNat % 16 :=
  (BitVec.toNat_and b 0x0F).trans (Nat.and_two_pow_sub_one_eq_mod b.toNat 4)

theorem toNat_highNibble (b : Byte) : (b &&& 0xF0).toNat = 16 * (b.toNat / 16) := by
  have hsplit : (b &&& 0xF0 : Byte) = b >>> 4 <<< 4 := by
    apply BitVec.eq_of_getLsbD_eq
    intro k hk
    interval_cases k <;> simp
  rw [hsplit, BitVec.toNat_shiftLeft, BitVec.toNat_ushiftRight, Nat.shiftLeft_eq, Nat.shiftRight_eq_div_pow]
  omega

/-- A byte's sign bit says whether its number reaches 128. -/
theorem getLsbD7_eq (b : Byte) : b.getLsbD 7 = decide (128 ≤ b.toNat) := BitVec.msb_eq_decide b

theorem eq_zero_iff_toNat (b : Byte) : b = 0 ↔ b.toNat = 0 := BitVec.toNat_inj.symm

theorem getLsbD7_ofInt (d : Int) : (BitVec.ofInt 8 d).getLsbD 7 = decide (128 ≤ d % 256) := by
  rw [getLsbD7_eq, BitVec.toNat_ofInt, decide_eq_decide]
  omega

/-- The low byte of an exact result, as a number. -/
theorem toNat_ofInt8 (d : Int) : ((BitVec.ofInt 8 d).toNat : Int) = d % 256 := by
  rw [BitVec.toNat_ofInt]
  omega

theorem ofInt_eq_zero_iff (d : Int) : BitVec.ofInt 8 d = 0 ↔ d % 256 = 0 := by
  rw [eq_zero_iff_toNat, BitVec.toNat_ofInt]
  omega

theorem sext8_eq (b : Byte) : sext8 b = if b.toNat < 128 then (b.toNat : Int) else b.toNat - 256 := by
  simp only [sext8, getLsbD7_eq, decide_eq_true_eq]
  split <;> split <;> omega

theorem and_signBit_ne_zero_iff (b : Byte) : b &&& 0x80 ≠ 0 ↔ b.getLsbD 7 = true := by
  rw [show (0x80 : Byte) = BitVec.twoPow 8 7 from rfl, BitVec.and_twoPow]
  split <;> simp_all

/-! ### The binary adder -/

/-- The overflow test of R140: the sign of `r` differs from the signs of both operands. -/
theorem overflowTest_iff (a m r : Byte) :
    (a ^^^ r) &&& (m ^^^ r) &&& 0x80 ≠ 0 ↔ a.getLsbD 7 = m.getLsbD 7 ∧ a.getLsbD 7 ≠ r.getLsbD 7 := by
  rw [and_signBit_ne_zero_iff, BitVec.getLsbD_and, BitVec.getLsbD_xor, BitVec.getLsbD_xor]
  cases a.getLsbD 7 <;> cases m.getLsbD 7 <;> cases r.getLsbD 7 <;> decide

theorem carryNat_le_one (cin : Bool) : carryNat cin ≤ 1 := by
  cases cin <;> decide

/-- The overflow test on the sum modulo 2^8 is signed overflow, since the signed sum lies outside -128..127 only where both
operands have one sign. -/
theorem overflowTest_sum_iff (a m : Byte) (cin : Bool) :
    (let r := BitVec.ofNat 8 (a.toNat + m.toNat + carryNat cin)
     (a ^^^ r) &&& (m ^^^ r) &&& 0x80 ≠ 0) ↔
      sext8 a + sext8 m + carryNat cin < -128 ∨ 127 < sext8 a + sext8 m + carryNat cin := by
  have hcin := carryNat_le_one cin
  have ha := a.isLt
  have hm := m.isLt
  simp only [overflowTest_iff, getLsbD7_eq, sext8_eq, decide_eq_decide, ne_eq, BitVec.toNat_ofNat]
  split <;> split <;> omega

/-- Settles O24: V by `overflowTest_sum_iff`, Z and N as numbers. -/
theorem binaryAdderResult : Obligations.BinaryAdderResult := by
  intro a m cin
  simp only [addBin, overflowTest_sum_iff, eq_zero_iff_toNat, getLsbD7_eq, BitVec.toNat_ofNat, Nat.reducePow]

/-! ### The binary difference -/

theorem toNat_complement (m : Byte) : (m ^^^ 0xFF).toNat = 255 - m.toNat := by
  rw [show (0xFF : Byte) = BitVec.allOnes 8 from rfl, BitVec.xor_allOnes, BitVec.toNat_not]

theorem sext8_complement (m : Byte) : sext8 (m ^^^ 0xFF) = -1 - sext8 m := by
  have hm := m.isLt
  simp only [sext8_eq, toNat_complement]
  split <;> split <;> omega

/-- The adder on the complemented operand subtracts: it adds `255 - m`, which is 256 more than `-1 - m`. -/
theorem addBin_complement (a m : Byte) (cin : Bool) :
    let d : Int := (a.toNat : Int) - m.toNat + carryNat cin - 1
    let sd : Int := sext8 a - sext8 m + carryNat cin - 1
    addBin a (m ^^^ 0xFF) cin =
      { r := BitVec.ofInt 8 d, c := 0 ≤ d, v := sd < -128 ∨ 127 < sd, z := d % 256 = 0, n := 128 ≤ d % 256 } := by
  intro d sd
  have hm := m.isLt
  have hsum : ((a.toNat + (255 - m.toNat) + carryNat cin : Nat) : Int) = d + 256 := by omega
  have hsigned : sext8 a + (-1 - sext8 m) + carryNat cin = sd := by omega
  rw [binaryAdderResult, toNat_complement, sext8_complement, hsigned]
  generalize a.toNat + (255 - m.toNat) + carryNat cin = sum at hsum
  clear_value d
  congr 1
  · apply BitVec.eq_of_toNat_eq
    rw [BitVec.toNat_ofNat, BitVec.toNat_ofInt]
    omega
  all_goals rw [decide_eq_decide]; omega

/-! ### The decimal cores -/

theorem sext8_highNibble (b : Byte) :
    sext8 (b &&& 0xF0) = if b.toNat < 128 then (16 * (b.toNat / 16) : Int) else 16 * (b.toNat / 16 : Int) - 256 := by
  simp only [sext8_eq, toNat_highNibble]
  split <;> split <;> omega

/-- Settles O58: the masked nibbles are numbers, and the subtractor's flags are those of `addBin_complement`. -/
theorem decimalCoresOnEveryByte : Obligations.DecimalCoresOnEveryByte := by
  intro a m cin
  refine ⟨?_, ?_⟩
  · simp only [addDec, toNat_lowNibble, toNat_highNibble, sext8_highNibble, getLsbD7_ofInt, decide_eq_true_eq,
      BitVec.toNat_ofNat, ← Nat.not_lt, ite_not, Nat.reducePow, and_self]
  · simp only [subDec, addBin_complement, toNat_lowNibble, toNat_highNibble, decide_eq_true_eq, Int.natCast_mul,
      Int.natCast_ediv, Int.natCast_emod, Nat.cast_ofNat, toNat_ofInt8, and_self]

/-! ### Decimal bytes -/

/-- A byte whose nibbles are two decimal digits is decimal and stands for their number. -/
theorem isBcd_and_bcdValue_of_digits {b : Byte} {tens digit : Nat} (htens : tens < 10) (hdigit : digit < 10)
    (h : b.toNat = 16 * tens + digit) : isBcd b ∧ bcdValue b = 10 * tens + digit := by
  rw [isBcd, bcdValue]
  omega

/-- The low correction carries a ten as a 16. -/
theorem lowSum_corrected {low : Nat} (h : low < 20) :
    (if low < 10 then low else (low + 6) % 16 + 16) = 16 * (low / 10) + low % 10 := by
  split <;> omega

/-- The high correction carries a hundred as a 256. -/
theorem highSum_corrected {high digit t : Nat} (hhigh : high < 20) (hdigit : digit < 10) (ht : t = 16 * high + digit) :
    (if t < 160 then t else t + 96) = 256 * (high / 10) + 16 * (high % 10) + digit := by
  split <;> omega

/-- A carry of 256 out of the corrected sum is a carried hundred. -/
theorem hundred_carried_iff {high digit : Nat} (hdigit : digit < 10) :
    256 ≤ 256 * (high / 10) + 16 * (high % 10) + digit ↔ 100 ≤ 10 * high + digit := by
  omega

/-- The low correction borrows a ten as a 16. -/
theorem lowDiff_corrected {low : Int} (hmin : -10 ≤ low) (hmax : low < 10) :
    (if low < 0 then (low - 6) % 16 - 16 else low) = 16 * (low / 10) + low % 10 := by
  split <;> omega

/-- The high correction borrows a hundred as a 256. -/
theorem highDiff_corrected {high digit t : Int} (hmin : -10 ≤ high) (hmax : high < 10) (hpos : 0 ≤ digit)
    (hdigit : digit < 10) (ht : t = 16 * high + digit) :
    (if t < 0 then t - 96 else t) = 256 * (high / 10) + 16 * (high % 10) + digit := by
  split <;> omega

/-- The sum is 10 times the high nibbles' sum with the carry, and a digit; the corrected sum has the digits of its
remainder modulo 100. -/
theorem addDec_decimal {a m : Byte} (ha : isBcd a) (hm : isBcd m) (cin : Bool) :
    let n := bcdValue a + bcdValue m + carryNat cin
    isBcd (addDec a m cin).r ∧ bcdValue (addDec a m cin).r = n % 100 ∧ (addDec a m cin).c = decide (100 ≤ n) := by
  intro n
  obtain ⟨⟨hr, hc, -⟩, -⟩ := decimalCoresOnEveryByte a m cin
  have hcin := carryNat_le_one cin
  obtain ⟨halow, hahigh⟩ := ha
  obtain ⟨hmlow, hmhigh⟩ := hm
  rw [lowSum_corrected (by omega)] at hr hc
  generalize hlow : a.toNat % 16 + m.toNat % 16 + carryNat cin = low at hr hc
  generalize hhigh : a.toNat / 16 + m.toNat / 16 + low / 10 = high
  have hn : n = 10 * high + low % 10 := by simp only [n, bcdValue]; omega
  rw [highSum_corrected (high := high) (digit := low % 10) (by omega) (by omega) (by omega)] at hr hc
  obtain ⟨hbcd, hvalue⟩ := isBcd_and_bcdValue_of_digits (b := (addDec a m cin).r) (tens := high % 10)
    (digit := low % 10) (by omega) (by omega) (by omega)
  refine ⟨hbcd, by omega, ?_⟩
  rw [Bool.eq_iff_iff, hc, decide_eq_true_iff, hn, hundred_carried_iff (by omega)]

/-- The same of the difference, whose high nibbles' difference takes the borrow. -/
theorem subDec_decimal {a m : Byte} (ha : isBcd a) (hm : isBcd m) (cin : Bool) :
    let n : Int := (bcdValue a : Int) - bcdValue m + carryNat cin - 1
    isBcd (subDec a m cin).r ∧ (bcdValue (subDec a m cin).r : Int) = n % 100 ∧
      (subDec a m cin).c = decide (0 ≤ n) := by
  intro n
  obtain ⟨-, hr, hc, -⟩ := decimalCoresOnEveryByte a m cin
  have hcin := carryNat_le_one cin
  obtain ⟨halow, hahigh⟩ := ha
  obtain ⟨hmlow, hmhigh⟩ := hm
  rw [lowDiff_corrected (by omega) (by omega)] at hr
  generalize hlow : (a.toNat % 16 : Int) - (m.toNat % 16 : Int) + carryNat cin - 1 = low at hr
  generalize hhigh : (a.toNat / 16 : Int) - (m.toNat / 16 : Int) + low / 10 = high
  have hn : n = 10 * high + low % 10 := by simp only [n, bcdValue]; omega
  rw [highDiff_corrected (high := high) (digit := low % 10) (by omega) (by omega) (by omega) (by omega) (by omega)] at hr
  obtain ⟨hbcd, hvalue⟩ := isBcd_and_bcdValue_of_digits (b := (subDec a m cin).r) (tens := (high % 10).toNat)
    (digit := (low % 10).toNat) (by omega) (by omega) (by omega)
  refine ⟨hbcd, by omega, ?_⟩
  rw [Bool.eq_iff_iff, hc, decide_eq_true_iff]
  omega

/-- Settles O27: the sum and the difference have the digits of the exact one modulo 100. -/
theorem decimalCoresComputeInDecimal : Obligations.DecimalCoresComputeInDecimal :=
  fun _ _ cin ha hm => ⟨addDec_decimal ha hm cin, subDec_decimal ha hm cin⟩

/-! ### The rules -/

theorem aluFlags_eq (res : AluResult) (p : Byte) : aluFlags res p = flagsNVZC res.n res.v res.z res.c p := by
  apply flags_ext <;> simp [flagsNVZC]

/-- An adder core's answer after an access that kept the working registers: it is assigned to the old `a` and `p`. -/
theorem assignAlu_of_work_eq (core : Byte → Byte → Byte → AluResult) (m : Byte) {st t : State} (h : t.work = st.work) :
    let res := core st.work.a m st.work.p
    assignAlu (core t.work.a m t.work.p) t =
      { t with work := { st.work with a := res.r, p := flagsNVZC res.n res.v res.z res.c st.work.p } } := by
  rw [assignAlu, State.setP_eq, State.setA_eq, h, aluFlags_eq]
  rfl

/-- Settles O25: in every form `adcCore`'s answer on the loaded byte is assigned. -/
theorem addWithCarryResult : Obligations.AddWithCarryResult :=
  ⟨fun _ b => exec_of_effect rfl rfl (assignAlu_of_work_eq adcCore b rfl),
    fun _ e st hm ho => exec_of_effect hm ho (assignAlu_of_work_eq adcCore _ (loadEa_work e st)),
    fun _ _ => rfl⟩

/-- SBC's flags are those of the binary difference in both modes (R144, D7). -/
theorem sbcCore_eq (a m p : Byte) :
    let d : Int := (a.toNat : Int) - m.toNat + carryNat (flagC p) - 1
    let sd : Int := sext8 a - sext8 m + carryNat (flagC p) - 1
    sbcCore a m p =
      { r := if flagD p then (subDec a m (flagC p)).r else BitVec.ofInt 8 d
        c := 0 ≤ d
        v := sd < -128 ∨ 127 < sd
        z := BitVec.ofInt 8 d = 0
        n := (BitVec.ofInt 8 d).getLsbD 7 } := by
  simp only [sbcCore, ofInt_eq_zero_iff, getLsbD7_ofInt]
  split
  · rw [subDec, addBin_complement]
  · exact addBin_complement a m (flagC p)

/-- Settles O26: in every form `sbcCore`'s answer on the loaded byte is assigned. -/
theorem subtractWithBorrowResult : Obligations.SubtractWithBorrowResult := by
  unfold Obligations.SubtractWithBorrowResult
  intro ends
  have hends (m : Byte) {st t : State} (h : t.work = st.work) : sbcOp (m, t) = ends m t st.work := by
    refine (assignAlu_of_work_eq sbcCore m h).trans ?_
    simp only [sbcCore_eq, ends]
  exact ⟨fun st b => exec_of_effect rfl rfl (hends b rfl),
    fun i e st hm ho => exec_of_effect hm ho (hends _ (loadEa_work e st)),
    fun _ _ => rfl⟩

end Sys2Proof.Machine
end

section
/-! The stack, subroutines, BRK and RTI (R60, R62 to R64, R160 to R167, R252, R253): each operation as its stack accesses
in order and one write of the working registers. On slots in RAM the accesses are direct, and a return finds the bytes that
its call stored. -/

namespace Sys2Proof.Machine

/-! ### The operations -/

/-- A pushed word is two writes going down from the stack pointer, the high byte first (R60, R164). -/
theorem pushWord_eq (w : Word) (st : State) :
    pushWord w st =
      (memWrite (stackAddr (st.work.s - 1)) (loByte w) (memWrite (stackAddr st.work.s) (hiByte w) st)).withWork
        { st.work with s := st.work.s - 2 } := by
  have hs : st.work.s - 1 - 1 = st.work.s - 2 := sub_sub _ _ _
  simp only [pushWord, push_eq, memWrite_withWork, State.withWork_work, State.withWork_withWork, hs]

/-- A pulled word is two reads going up from above the stack pointer, the low byte first (R165, R167). -/
theorem pullWord_eq (st : State) :
    let lo := memRead (stackAddr (st.work.s + 1)) st
    let hi := memRead (stackAddr (st.work.s + 2)) lo.2
    pullWord st = (wordOf hi.1 lo.1, hi.2.withWork { st.work with s := st.work.s + 2 }) := by
  have hs : st.work.s + 1 + 1 = st.work.s + 2 := add_assoc _ _ _
  simp only [pullWord, pull_eq, memRead_withWork, State.withWork_work, State.withWork_withWork, hs]

theorem plaOp_eq (st : State) :
    let m := memRead (stackAddr (st.work.s + 1)) st
    plaOp st = m.2.withWork { st.work with s := st.work.s + 1, a := m.1, p := flagsNZ m.1 st.work.p } := by
  simp only [plaOp, pull_eq, assignA_eq, State.withWork_work, State.withWork_withWork, setznSetsOnlyZeroAndNegative _ _]

theorem plpOp_eq (st : State) :
    let m := memRead (stackAddr (st.work.s + 1)) st
    plpOp st = m.2.withWork { st.work with s := st.work.s + 1, p := m.1 } := by
  simp only [plpOp, pull_eq, State.setP_eq, State.withWork_work, State.withWork_withWork]

theorem jsrOp_eq (w : Word) (st : State) :
    jsrOp w st =
      (memWrite (stackAddr (st.work.s - 1)) (loByte (st.work.pc - 1))
        (memWrite (stackAddr st.work.s) (hiByte (st.work.pc - 1)) st)).withWork
        { st.work with s := st.work.s - 2, pc := w } := by
  simp only [jsrOp, resolve, pushWord_eq, State.setPc_eq, State.withWork_work, State.withWork_withWork]

theorem rtsOp_eq (st : State) :
    let lo := memRead (stackAddr (st.work.s + 1)) st
    let hi := memRead (stackAddr (st.work.s + 2)) lo.2
    rtsOp st = hi.2.withWork { st.work with s := st.work.s + 2, pc := wordOf hi.1 lo.1 + 1 } := by
  simp only [rtsOp, pullWord_eq, State.setPc_eq, State.withWork_work, State.withWork_withWork]

/-- Taking the break: three writes going down the stack, then the vector's two reads. The return address is the `pc` after
the opcode byte (D9). -/
theorem takeBreak_eq (st : State) :
    let pushed := memWrite (stackAddr (st.work.s - 2)) (st.work.p ||| 0x34)
      (memWrite (stackAddr (st.work.s - 1)) (loByte st.work.pc) (memWrite (stackAddr st.work.s) (hiByte st.work.pc) st))
    let lo := memRead 0xFFFE pushed
    let hi := memRead 0xFFFF lo.2
    takeBreak st =
      hi.2.withWork { st.work with pc := wordOf hi.1 lo.1, s := st.work.s - 3, p := st.work.p ||| 0x14 } := by
  have hret : st.work.pc - 1 + brkPushOffset = st.work.pc := sub_add_cancel _ _
  have hs : st.work.s - 2 - 1 = st.work.s - 3 := sub_sub _ _ _
  have hpushed : st.work.p ||| 0x14 ||| 0x20 = st.work.p ||| 0x34 := BitVec.or_assoc _ _ _
  have hvector (t : State) : memReadWord brkVector t = memReadPair 0xFFFE 0xFFFF t := rfl
  simp only [takeBreak, hret, pushWord_eq, push_eq, State.setP_eq, State.setPc_eq, hvector, memReadPair,
    memWrite_withWork, memRead_withWork, State.withWork_work, State.withWork_withWork, hs, hpushed]

/-- Returning from it: `p` is pulled, then a word. -/
theorem returnFromBreak_eq (st : State) :
    let flags := memRead (stackAddr (st.work.s + 1)) st
    let lo := memRead (stackAddr (st.work.s + 2)) flags.2
    let hi := memRead (stackAddr (st.work.s + 3)) lo.2
    returnFromBreak st = hi.2.withWork { st.work with p := flags.1, pc := wordOf hi.1 lo.1, s := st.work.s + 3 } := by
  have hs₂ : st.work.s + 1 + 1 = st.work.s + 2 := add_assoc _ _ _
  have hs₃ : st.work.s + 1 + 2 = st.work.s + 3 := add_assoc _ _ _
  simp only [returnFromBreak, pull_eq, pullWord_eq, State.setP_eq, State.setPc_eq, memRead_withWork, State.withWork_work,
    State.withWork_withWork, hs₂, hs₃]

/-! ### The rules -/

/-- Settles O29: a push of `a`, a pushed word with a jump, and a pulled word with a jump. -/
theorem pushAndSubroutineResult : Obligations.PushAndSubroutineResult :=
  ⟨fun st w => ⟨exec_of_effect rfl rfl (push_eq st.work.a st), exec_of_effect rfl rfl (jsrOp_eq w st),
    exec_of_effect rfl rfl (rtsOp_eq st)⟩, fun _ => rfl⟩

/-- Settles O30: a pull assigned to `a`, a push of `p` with U and B set, and a pull assigned to `p`. -/
theorem statusAndPullResult : Obligations.StatusAndPullResult :=
  fun st => ⟨exec_of_effect rfl rfl (plaOp_eq st), exec_of_effect rfl rfl (push_eq (st.work.p ||| 0x30) st),
    exec_of_effect rfl rfl (plpOp_eq st), rfl⟩

/-- Settles O31: BRK takes the break. -/
theorem breakTakesItsTrap : Obligations.BreakTakesItsTrap :=
  fun st => ⟨exec_of_effect rfl rfl (takeBreak_eq st), rfl⟩

/-- Settles O32: RTI returns from the break. -/
theorem returnFromBreakRestores : Obligations.ReturnFromBreakRestores :=
  fun st => ⟨exec_of_effect rfl rfl (returnFromBreak_eq st), rfl⟩

/-! ### Slots in RAM -/

/-- A read of the address answers the byte and does not trap. -/
structure HoldsPlain (st : State) (addr : Word) (v : Byte) : Prop where
  plain : ¬ st.isSpecial addr
  byte : st.byteAt addr = v

theorem HoldsPlain.memRead_eq {st : State} {addr : Word} {v : Byte} (h : HoldsPlain st addr v) :
    memRead addr st = (v, st) := by
  rw [memRead_plain h.plain, h.byte]

/-- A byte stored in RAM stands there. -/
theorem holdsPlain_setByte {st : State} {addr : Word} (hm : Memory.wf st.memory) (hram : st.isRam addr) (v : Byte) :
    HoldsPlain (st.setByte addr v) addr v :=
  ⟨(State.classify_ram.mp hram).1, by rw [State.byteAt_setByte hm, if_pos rfl]⟩

/-- A byte stays where another address is written. -/
theorem HoldsPlain.setByte {st : State} {addr : Word} {v : Byte} (h : HoldsPlain st addr v)
    (hm : Memory.wf st.memory) {addr' : Word} (hne : addr ≠ addr') (v' : Byte) :
    HoldsPlain (st.setByte addr' v') addr v :=
  ⟨h.plain, by rw [State.byteAt_setByte hm, if_neg hne, h.byte]⟩

theorem HoldsPlain.withWork {st : State} {addr : Word} {v : Byte} (h : HoldsPlain st addr v) (w : Regs) :
    HoldsPlain (st.withWork w) addr v := ⟨h.plain, h.byte⟩

/-- Different stack pointers designate different addresses. -/
theorem stackAddr_ne {s s' : Byte} (h : s ≠ s') : stackAddr s ≠ stackAddr s' := by
  simp only [stackAddr, stackPage]
  bv_omega

/-! ### Returns on slots that do not trap -/

/-- RTS with the stack pointer two below `s`: it continues behind the word in the slots of `s` and `s - 1`. -/
theorem rtsOp_of_holdsPlain {t : State} {s hi lo : Byte} (hs : t.work.s = s - 2)
    (hhi : HoldsPlain t (stackAddr s) hi) (hlo : HoldsPlain t (stackAddr (s - 1)) lo) :
    rtsOp t = t.withWork { t.work with s := s, pc := wordOf hi lo + 1 } := by
  have hs₁ : s - 2 + 1 = s - 1 := by bv_omega
  have hs₂ : s - 2 + 2 = s := sub_add_cancel _ _
  simp only [rtsOp_eq, hs, hs₁, hs₂, hlo.memRead_eq, hhi.memRead_eq]

/-- RTI with the stack pointer three below `s`: it takes `p` from the slot of `s - 2` and `pc` from the two above. -/
theorem returnFromBreak_of_holdsPlain {t : State} {s hi lo flags : Byte} (hs : t.work.s = s - 3)
    (hhi : HoldsPlain t (stackAddr s) hi) (hlo : HoldsPlain t (stackAddr (s - 1)) lo)
    (hflags : HoldsPlain t (stackAddr (s - 2)) flags) :
    returnFromBreak t = t.withWork { t.work with p := flags, pc := wordOf hi lo, s := s } := by
  have hs₁ : s - 3 + 1 = s - 2 := by bv_omega
  have hs₂ : s - 3 + 2 = s - 1 := by bv_omega
  have hs₃ : s - 3 + 3 = s := sub_add_cancel _ _
  simp only [returnFromBreak_eq, hs, hs₁, hs₂, hs₃, hflags.memRead_eq, hlo.memRead_eq, hhi.memRead_eq]

/-! ### Calls on slots in RAM -/

/-- A word stored past the decoder in the slots of `s` and `s - 1`, the high byte in the upper one. -/
def State.storeWord (st : State) (s : Byte) (w : Word) : State :=
  (st.setByte (stackAddr s) (hiByte w)).setByte (stackAddr (s - 1)) (loByte w)

theorem storeWord_wf {st : State} (hm : Memory.wf st.memory) (s : Byte) (w : Word) :
    Memory.wf (st.storeWord s w).memory := setByte_wf (setByte_wf hm)

/-- On slots in RAM the two writes of a pushed word store it. -/
theorem memWrite_eq_storeWord {st : State} {s : Byte} (hhi : st.isRam (stackAddr s))
    (hlo : st.isRam (stackAddr (s - 1))) (w : Word) :
    memWrite (stackAddr (s - 1)) (loByte w) (memWrite (stackAddr s) (hiByte w) st) = st.storeWord s w := by
  rw [memWrite_ram hhi, memWrite_ram (st := st.setByte _ _) hlo]
  rfl

theorem storeWord_holdsPlain_hi {st : State} {s : Byte} (hm : Memory.wf st.memory) (hhi : st.isRam (stackAddr s))
    (w : Word) : HoldsPlain (st.storeWord s w) (stackAddr s) (hiByte w) :=
  (holdsPlain_setByte hm hhi _).setByte (setByte_wf hm) (stackAddr_ne (by bv_omega)) _

theorem storeWord_holdsPlain_lo {st : State} {s : Byte} (hm : Memory.wf st.memory)
    (hlo : st.isRam (stackAddr (s - 1))) (w : Word) :
    HoldsPlain (st.storeWord s w) (stackAddr (s - 1)) (loByte w) :=
  holdsPlain_setByte (st := st.setByte _ _) (setByte_wf hm) hlo _

/-- What BRK saves: `pc` and below it `p` with U, B and I set. -/
def State.savedByBreak (st : State) : State :=
  (st.storeWord st.work.s st.work.pc).setByte (stackAddr (st.work.s - 2)) (st.work.p ||| 0x34)

/-- BRK on slots in RAM and a vector that does not trap saves and goes to the word at the vector. -/
theorem takeBreak_ram {st : State} (hram₀ : st.isRam (stackAddr st.work.s))
    (hram₁ : st.isRam (stackAddr (st.work.s - 1))) (hram₂ : st.isRam (stackAddr (st.work.s - 2)))
    (hvectorLo : ¬ st.isSpecial 0xFFFE) (hvectorHi : ¬ st.isSpecial 0xFFFF) :
    takeBreak st = st.savedByBreak.withWork { st.work with
      pc := wordOf (st.savedByBreak.byteAt 0xFFFF) (st.savedByBreak.byteAt 0xFFFE)
      s := st.work.s - 3
      p := st.work.p ||| 0x14 } := by
  have hsaved : memWrite (stackAddr (st.work.s - 2)) (st.work.p ||| 0x34) (st.storeWord st.work.s st.work.pc) =
      st.savedByBreak := memWrite_ram (st := st.storeWord _ _) hram₂ _
  have hlo := memRead_plain (st := st.savedByBreak) hvectorLo
  have hhi := memRead_plain (st := st.savedByBreak) hvectorHi
  simp only [takeBreak_eq, memWrite_eq_storeWord hram₀ hram₁, hsaved, hlo, hhi]

/-! ### The round trips -/

/-- Settles O34: RTS reads the two bytes that JSR stored, the address before its `pc`. -/
theorem subroutineReturnsBehindItsCall : Obligations.SubroutineReturnsBehindItsCall := by
  intro st w hm hram₀ hram₁
  have hjsr := jsrOp_eq w st
  rw [memWrite_eq_storeWord hram₀ hram₁] at hjsr
  refine ⟨_, _, exec_of_effect rfl rfl hjsr, rfl, exec_of_effect rfl rfl (rtsOp_of_holdsPlain rfl
    ((storeWord_holdsPlain_hi hm hram₀ _).withWork _) ((storeWord_holdsPlain_lo hm hram₁ _).withWork _)), ?_⟩
  rw [Laws.wordOf_bytes, sub_add_cancel]
  rfl

/-- Settles O35: RTI reads the three bytes that BRK stored; the vector's reads change nothing in between. -/
theorem returnBehindTheBreak : Obligations.ReturnBehindTheBreak := by
  intro st hm hram₀ hram₁ hram₂ hvectorLo hvectorHi
  have hword := storeWord_wf hm st.work.s st.work.pc
  have hhi : HoldsPlain st.savedByBreak (stackAddr st.work.s) (hiByte st.work.pc) :=
    (storeWord_holdsPlain_hi hm hram₀ _).setByte hword (stackAddr_ne (by bv_omega)) _
  have hlo : HoldsPlain st.savedByBreak (stackAddr (st.work.s - 1)) (loByte st.work.pc) :=
    (storeWord_holdsPlain_lo hm hram₁ _).setByte hword (stackAddr_ne (by bv_omega)) _
  have hflags : HoldsPlain st.savedByBreak (stackAddr (st.work.s - 2)) (st.work.p ||| 0x34) :=
    holdsPlain_setByte (st := st.storeWord _ _) hword hram₂ _
  have hbrk := takeBreak_ram hram₀ hram₁ hram₂ hvectorLo hvectorHi
  refine ⟨_, _, exec_of_effect rfl rfl hbrk, exec_of_effect rfl rfl (returnFromBreak_of_holdsPlain rfl
    (hhi.withWork _) (hlo.withWork _) (hflags.withWork _)), ?_⟩
  rw [Laws.wordOf_bytes]
  rfl

end Sys2Proof.Machine
end

section
/-! The branches and JMP (R180 to R189): each as one write of `pc`, a taken branch with its extra cycle. -/

namespace Sys2Proof.Machine

/-! ### Branches -/

/-- A branch target as a number: the displacement added to `pc` modulo 2^16, whatever its sign (R91). -/
theorem resolve_rel (b : Byte) (st : State) :
    resolve (.rel b) st = (BitVec.ofInt 16 (st.work.pc.toNat + sext8 b), st) := by
  rw [BitVec.ofInt_add, BitVec.ofInt_natCast, BitVec.ofNat_toNat, BitVec.setWidth_eq]
  rfl

/-- A taken branch writes `pc` and charges one cycle; a branch not taken changes nothing (R180). -/
theorem branch_eq (cond : Bool) (b : Byte) (st : State) :
    branch cond b st =
      if cond then
        { st with
          work := { st.work with pc := BitVec.ofInt 16 (st.work.pc.toNat + sext8 b) }
          budget := st.budget - 1 }
      else st := by
  simp only [branch, resolve_rel]
  rfl

/-- The rows of the eight branch opcodes cost 2 cycles (R180). -/
theorem tableEntry_cycles_of_branch :
    ∀ op ∈ ([0x10, 0x30, 0x50, 0x70, 0x90, 0xB0, 0xD0, 0xF0] : List Byte),
      (tableEntry op).map TableRow.cycles = some 2 := by
  decide

/-- Settles O36: each branch is `branch` on its flag, and its opcode byte is among those whose rows cost 2 cycles. -/
theorem branchResult : Obligations.BranchResult := by
  refine ⟨fun st b => ?_, fun b => ⟨rfl, fun i hi => ?_⟩⟩
  · have hbranch (cond : Bool) := branch_eq cond b st
    exact ⟨exec_of_effect rfl rfl (hbranch _), exec_of_effect rfl rfl (hbranch _),
      exec_of_effect rfl rfl (hbranch _), exec_of_effect rfl rfl (hbranch _),
      exec_of_effect rfl rfl (hbranch _), exec_of_effect rfl rfl (hbranch _),
      exec_of_effect rfl rfl (hbranch _), exec_of_effect rfl rfl (hbranch _)⟩
  · exact Option.map_eq_some_iff.mp (tableEntry_cycles_of_branch _ (List.mem_map_of_mem (f := Instr.opcode) hi))

/-! ### JMP -/

/-- A jump writes `pc` after the accesses that resolve its target (R189). -/
theorem jmpOp_eq (e : Ea) (st : State) :
    jmpOp e st = (resolve e st).2.withWork { st.work with pc := (resolve e st).1 } := by
  simp only [jmpOp, State.setPc_eq, resolve_work]

/-- Settles O37: the target is the operand word, or the word whose two bytes the pointer's two reads give. -/
theorem jumpResult : Obligations.JumpResult :=
  fun st w => ⟨exec_of_effect rfl rfl (jmpOp_eq (.abs w) st), exec_of_effect rfl rfl (jmpOp_eq (.ind w) st), rfl⟩

end Sys2Proof.Machine
end

section
/-! The transfers and the register increments and decrements (R190 to R199): each an assignment to one register, with N and
Z from the assigned value but for TSX and TXS. -/

namespace Sys2Proof.Machine

/-! ### An assignment as a next state (R27) -/

theorem assignA_eq_flagsNZ (v : Byte) (st : State) :
    assignA v st = { st with work := { st.work with a := v, p := flagsNZ v st.work.p } } :=
  assignA_of_work_eq (fun _ => v) rfl

theorem assignX_eq_flagsNZ (v : Byte) (st : State) :
    assignX v st = { st with work := { st.work with x := v, p := flagsNZ v st.work.p } } := by
  rw [assignX_eq, setznSetsOnlyZeroAndNegative]
  rfl

theorem assignY_eq_flagsNZ (v : Byte) (st : State) :
    assignY v st = { st with work := { st.work with y := v, p := flagsNZ v st.work.p } } := by
  rw [assignY_eq, setznSetsOnlyZeroAndNegative]
  rfl

/-- Settles O38: eight of the instructions are an assignment with its flags; TSX and TXS write their register alone. -/
theorem transferAndStepResult : Obligations.TransferAndStepResult := by
  intro st w
  have toA (v : Byte) := assignA_eq_flagsNZ v st
  have toX (v : Byte) := assignX_eq_flagsNZ v st
  have toY (v : Byte) := assignY_eq_flagsNZ v st
  refine ⟨?tax, ?txa, ?tay, ?tya, ?tsx, ?txs, ?inx, ?iny, ?dex, ?dey, ?opcodes⟩
  case tax | inx | dex => exact exec_of_effect rfl rfl (toX _)
  case txa | tya => exact exec_of_effect rfl rfl (toA _)
  case tay | iny | dey => exact exec_of_effect rfl rfl (toY _)
  case tsx => exact exec_of_effect rfl rfl (State.setX_eq st w.s)
  case txs => exact exec_of_effect rfl rfl (State.setS_eq st w.x)
  case opcodes => rfl

end Sys2Proof.Machine
end

section
/-! Loads, stores, the flag instructions and NOP (R210 to R223): a load is an assignment after its access, a store one
memory write that keeps the working registers, a flag instruction one replaced bit of `p`. -/

namespace Sys2Proof.Machine

/-! ### Loads -/

/-- An assignment to `x` after an access that kept the working registers: its flags keep the old `p`. -/
theorem assignX_of_work_eq (v : Byte) {st t : State} (h : t.work = st.work) :
    assignX v t = { t with work := { st.work with x := v, p := flagsNZ v st.work.p } } := by
  rw [assignX_eq_flagsNZ, h]

/-- The same for `y`. -/
theorem assignY_of_work_eq (v : Byte) {st t : State} (h : t.work = st.work) :
    assignY v t = { t with work := { st.work with y := v, p := flagsNZ v st.work.p } } := by
  rw [assignY_eq_flagsNZ, h]

/-- Settles O39: in every form the register is assigned the loaded byte, after an access that kept the registers. -/
theorem loadResult : Obligations.LoadResult := by
  refine ⟨fun st b => ⟨?_, ?_, ?_⟩, fun i e st ho => ?_, fun b w => ⟨rfl, rfl, rfl⟩⟩
  · exact exec_of_effect rfl rfl (assignA_eq_flagsNZ b st)
  · exact exec_of_effect rfl rfl (assignX_eq_flagsNZ b st)
  · exact exec_of_effect rfl rfl (assignY_eq_flagsNZ b st)
  · have hwork := loadEa_work e st
    exact ⟨fun hm => exec_of_effect hm ho (assignA_of_work_eq (fun _ => (loadEa e st).1) hwork),
      fun hm => exec_of_effect hm ho (assignX_of_work_eq (loadEa e st).1 hwork),
      fun hm => exec_of_effect hm ho (assignY_of_work_eq (loadEa e st).1 hwork)⟩

/-! ### Stores -/

/-- Settles O40: in every form the effect is `storeEa` of the register. -/
theorem storeResult : Obligations.StoreResult := by
  refine ⟨fun i e st ho => ?_, fun b w => ⟨rfl, rfl, rfl⟩⟩
  have hsta (hm : i.mnemonic = .sta) : exec i st = .next (storeEa e st.work.a st) := exec_of_effect hm ho rfl
  have hstx (hm : i.mnemonic = .stx) : exec i st = .next (storeEa e st.work.x st) := exec_of_effect hm ho rfl
  have hsty (hm : i.mnemonic = .sty) : exec i st = .next (storeEa e st.work.y st) := exec_of_effect hm ho rfl
  refine ⟨hsta, hstx, hsty, fun hm t ht => ?_⟩
  obtain ⟨v, hv⟩ : ∃ v, exec i st = .next (storeEa e v st) := by
    rcases hm with hm | hm | hm
    · exact ⟨_, hsta hm⟩
    · exact ⟨_, hstx hm⟩
    · exact ⟨_, hsty hm⟩
  obtain rfl : storeEa e v st = t := Host.Outcome.next.inj (hv.symm.trans ht)
  exact storeEa_work e v st

/-! ### Flag instructions and NOP -/

theorem putC_eq_packFlags (c : Bool) (p : Byte) :
    putC c p = packFlags (flagN p) (flagV p) (flagU p) (flagB p) (flagD p) (flagI p) (flagZ p) c := by
  apply flags_ext <;> simp

theorem putI_eq_packFlags (i : Bool) (p : Byte) :
    putI i p = packFlags (flagN p) (flagV p) (flagU p) (flagB p) (flagD p) i (flagZ p) (flagC p) := by
  apply flags_ext <;> simp

theorem putV_eq_packFlags (v : Bool) (p : Byte) :
    putV v p = packFlags (flagN p) v (flagU p) (flagB p) (flagD p) (flagI p) (flagZ p) (flagC p) := by
  apply flags_ext <;> simp

theorem putD_eq_packFlags (d : Bool) (p : Byte) :
    putD d p = packFlags (flagN p) (flagV p) (flagU p) (flagB p) d (flagI p) (flagZ p) (flagC p) := by
  apply flags_ext <;> simp

/-- Settles O41: each flag instruction writes `p` with its own bit replaced; NOP's effect is the state itself. -/
theorem flagInstructionsResult : Obligations.FlagInstructionsResult := by
  intro st p flags
  refine ⟨?clc, ?sec, ?cli, ?sei, ?clv, ?cld, ?sed, ?nop, ?opcodes⟩
  case clc | sec => exact exec_of_effect rfl rfl (congrArg st.setP (putC_eq_packFlags _ p))
  case cli | sei => exact exec_of_effect rfl rfl (congrArg st.setP (putI_eq_packFlags _ p))
  case clv => exact exec_of_effect rfl rfl (congrArg st.setP (putV_eq_packFlags _ p))
  case cld | sed => exact exec_of_effect rfl rfl (congrArg st.setP (putD_eq_packFlags _ p))
  case nop => exact exec_of_effect rfl rfl rfl
  case opcodes => rfl

end Sys2Proof.Machine
end

section
/-! The costs of the dispatch table (R180, R231, R281), what one iteration of the loop of R243 does to the call, and that
every step keeps the invariant. -/

namespace Sys2Proof.Machine

/-! ### The costs -/

/-- Row by row: the table's cost is the one the rules give the row's mnemonic and mode, and it is from 2 to 7. -/
theorem dispatchTable_cycles :
    (dispatchTable.all fun row =>
      baseCycles row.mnemonic row.mode == some row.cycles && decide (2 ≤ row.cycles ∧ row.cycles ≤ 7)) = true := by
  rfl

/-- A row that an instruction's opcode byte finds is the instruction's own (R231). -/
theorem row_of_opcode {i : Instr} {row : TableRow} (h : tableEntry i.opcode = some row) :
    baseCycles i.mnemonic i.operand.mode = some row.cycles ∧ 2 ≤ row.cycles ∧ row.cycles ≤ 7 := by
  obtain ⟨row', hrow, hmode, hmnemonic, -⟩ := Laws.TableEntry.statement i
  obtain rfl : row = row' := Option.some.inj (h.symm.trans hrow)
  rw [← hmode, ← hmnemonic]
  simpa using List.all_eq_true.mp dispatchTable_cycles row (Laws.tableEntry_mem hrow)

/-- Settles O7: the row of the instruction, by its mnemonic and its mode. -/
theorem cycleCostsAreThoseListed : Obligations.CycleCostsAreThoseListed := by
  intro i
  obtain ⟨row, hrow, -⟩ := Laws.TableEntry.statement i
  obtain ⟨hbase, hmin, hmax⟩ := row_of_opcode hrow
  exact ⟨row, row.cycles, hrow, hbase, rfl, hmin, hmax⟩

/-- A taken branch has a displacement, and so its base cost is 2 (R180). -/
theorem baseCycles_of_branchTaken {i : Instr} {p : Byte} (h : branchTaken i.mnemonic p = true) :
    baseCycles i.mnemonic i.operand.mode = some 2 := by
  have hmode := mode_mem_modes i
  revert h hmode
  generalize i.mnemonic = m
  intro h hmode
  cases m
  case bpl | bmi | bvc | bvs | bcc | bcs | bne | beq =>
    rw [List.mem_singleton.mp hmode]
    rfl
  all_goals cases h

/-! ### What a fetch charges -/

@[simp] theorem fetchByte_budget (st : State) : (fetchByte st).2.budget = st.budget :=
  memRead_budget st.work.pc st

theorem fetchOperands_legal {row : TableRow} {st u : State} {i : Instr} (h : fetchOperands row st = .legal i u) :
    (∃ b1 b2, i = row.build b1 b2) ∧ u.budget = st.budget - row.cycles := by
  unfold fetchOperands at h
  split at h
  all_goals
    cases h
    exact ⟨⟨_, _, rfl⟩, by simp⟩

theorem fetchInstr_of_entry {st : State} {row : TableRow} (h : tableEntry (fetchByte st).1 = some row) :
    fetchInstr st = fetchOperands row (fetchByte st).2 := by
  simp only [fetchInstr, h]

theorem fetchInstr_of_no_entry {st : State} (h : tableEntry (fetchByte st).1 = none) :
    fetchInstr st = .illegal (fetchByte st).2 := by
  simp only [fetchInstr, h]

/-- A fetched instruction has a row in the table, and the row's cost is deducted (R234). -/
theorem fetchInstr_legal {st u : State} {i : Instr} (h : fetchInstr st = .legal i u) :
    ∃ row, tableEntry i.opcode = some row ∧ u.budget = st.budget - row.cycles := by
  cases hrow : tableEntry (fetchByte st).1 with
  | none =>
    rw [fetchInstr_of_no_entry hrow] at h
    cases h
  | some row =>
    rw [fetchInstr_of_entry hrow] at h
    obtain ⟨⟨b1, b2, rfl⟩, hbudget⟩ := fetchOperands_legal h
    obtain ⟨hop, -⟩ := Laws.build_opcode_form (Laws.tableEntry_mem hrow) b1 b2
    refine ⟨row, ?_, by rw [hbudget, fetchByte_budget]⟩
    rw [hop, Laws.tableEntry_opcode hrow, hrow]

/-- An illegal byte is fetched by one `fetchByte` and charges nothing (R233). -/
theorem fetchInstr_illegal {st u : State} (h : fetchInstr st = .illegal u) : u = (fetchByte st).2 := by
  cases hrow : tableEntry (fetchByte st).1 with
  | none =>
    rw [fetchInstr_of_no_entry hrow] at h
    cases h
    rfl
  | some row =>
    rw [fetchInstr_of_entry hrow, fetchOperands] at h
    split at h <;> cases h

/-! ### The stop test (R236) -/

theorem stopTest_eq_none_iff {st : State} : stopTest st = none ↔ st.work.p ≠ 0x00 ∧ 0 < st.budget := by
  unfold stopTest
  split
  · simp_all
  · split <;> simp_all

theorem stopTest_eq_stopped {st : State} (hp : st.work.p = 0x00) : stopTest st = some .stopped := if_pos hp

theorem stopTest_eq_exhausted {st : State} (hp : st.work.p ≠ 0x00) (hbudget : st.budget ≤ 0) :
    stopTest st = some .exhausted := (if_neg hp).trans (if_pos hbudget)

/-- `Stopped` needs `p = 0`; `Exhausted` needs a budget that is not positive; the test never answers a halt. -/
theorem stopTest_eq_some {st : State} {status : ExitStatus} (h : stopTest st = some status) :
    (status = .stopped ∧ st.work.p = 0x00) ∨ (status = .exhausted ∧ st.budget ≤ 0) := by
  unfold stopTest at h
  split at h
  · cases h
    exact .inl ⟨rfl, ‹_›⟩
  · split at h
    · cases h
      exact .inr ⟨rfl, ‹_›⟩
    · cases h

/-! ### One iteration of the loop (R243) -/

/-- The iteration leaves the call with this status, the working state being `u`: a stop test holds, or the byte at `pc` is
illegal. -/
inductive LoopLeaves : State → ExitStatus → State → Prop
  | stop {st : State} {status : ExitStatus} (hstop : stopTest st = some status) : LoopLeaves st status st
  | illegal {st u : State} (hgo : stopTest st = none) (hfetch : fetchInstr st = .illegal u) :
      LoopLeaves st .haltedIllegalOpcode u

/-- The iteration runs one instruction, which leads to `t`. -/
def LoopRuns (st t : State) : Prop :=
  stopTest st = none ∧ ∃ i u, fetchInstr st = .legal i u ∧ exec i u = .next t

theorem LoopLeaves.loopStep_eq {st u : State} {status : ExitStatus} (h : LoopLeaves st status u) (ticks : Int) :
    loopStep ticks st = .next (exitCall ticks status u) := by
  cases h with
  | stop hstop => simp only [loopStep, hstop]
  | illegal hgo hfetch => simp only [loopStep, hgo, hfetch]

theorem LoopRuns.loopStep_eq {st t : State} (h : LoopRuns st t) (ticks : Int) : loopStep ticks st = .next t := by
  obtain ⟨hgo, i, u, hfetch, hexec⟩ := h
  simp only [loopStep, hgo, hfetch, hexec]

/-- An iteration leaves the call or runs one instruction. -/
theorem leaves_or_runs_of_loopStep {ticks : Int} {st t : State} (h : loopStep ticks st = .next t) :
    (∃ status u, LoopLeaves st status u ∧ t = exitCall ticks status u) ∨ LoopRuns st t := by
  obtain ⟨status, hstop, ht⟩ | ⟨u, hgo, hfetch, ht⟩ | ⟨i, u, hgo, hfetch, hexec⟩ := loopStep_cases h
  · exact .inl ⟨status, st, .stop hstop, ht⟩
  · exact .inl ⟨_, u, .illegal hgo hfetch, ht⟩
  · exact .inr ⟨hgo, i, u, hfetch, hexec⟩

theorem LoopLeaves.ran {st u : State} {status : ExitStatus} (h : LoopLeaves st status u) : Ran st u := by
  cases h with
  | stop => exact Ran.refl st
  | illegal _ hfetch => exact ran_of_fetchInstr_illegal hfetch

theorem LoopRuns.ran {st t : State} (h : LoopRuns st t) : Ran st t := by
  obtain ⟨-, i, u, hfetch, hexec⟩ := h
  exact (ran_of_fetchInstr_legal hfetch).trans (exec_ran hexec)

/-- Leaving charges nothing (R233, R238). -/
theorem LoopLeaves.budget_eq {st u : State} {status : ExitStatus} (h : LoopLeaves st status u) :
    u.budget = st.budget := by
  cases h with
  | stop => rfl
  | illegal _ hfetch => rw [fetchInstr_illegal hfetch, fetchByte_budget]

/-- Only a budget that is not positive exhausts the call, and only with budget left is it halted (R236, R239). -/
theorem LoopLeaves.budget_of_status {st u : State} {status : ExitStatus} (h : LoopLeaves st status u) :
    (status = .exhausted → st.budget ≤ 0) ∧ (status = .haltedIllegalOpcode → 0 < st.budget) := by
  cases h with
  | stop hstop =>
    obtain ⟨rfl, -⟩ | ⟨rfl, hbudget⟩ := stopTest_eq_some hstop
    · exact ⟨nofun, nofun⟩
    · exact ⟨fun _ => hbudget, nofun⟩
  | illegal hgo => exact ⟨nofun, fun _ => (stopTest_eq_none_iff.mp hgo).2⟩

/-- An instruction runs with budget left and costs from 2 to 7 cycles, the extra one of a taken branch included. -/
theorem LoopRuns.budget_bounds {st t : State} (h : LoopRuns st t) :
    0 < st.budget ∧ t.budget ≤ st.budget - 2 ∧ st.budget - 7 ≤ t.budget := by
  obtain ⟨hgo, i, u, hfetch, hexec⟩ := h
  obtain ⟨-, hpos⟩ := stopTest_eq_none_iff.mp hgo
  obtain ⟨row, hrow, hcharged⟩ := fetchInstr_legal hfetch
  obtain ⟨hbase, hmin, hmax⟩ := row_of_opcode hrow
  obtain ⟨-, hbudget, -⟩ := instructionsLeaveRecordAndConfiguration i u t hexec
  cases htaken : branchTaken i.mnemonic u.work.p
  · simp only [htaken, Bool.false_eq_true, if_false] at hbudget
    omega
  · have hcost : row.cycles = 2 := Option.some.inj (hbase.symm.trans (baseCycles_of_branchTaken htaken))
    simp only [htaken, if_true] at hbudget
    omega

/-! ### The invariant -/

/-- While a call runs `callWf` speaks of its configuration, the record's tick budget and the working budget. -/
theorem State.callWf_of_running {st : State} {ticks : Int} (h : st.phase = .running ticks) :
    st.callWf ↔ st.launchable ∧ st.tickBudget = ticks ∧ st.result = none ∧ st.budget ≤ ticks ∧
      (st.budget = ticks ∨ -6 ≤ st.budget) := by
  simp only [State.callWf, h]

theorem SameConfiguration.launchable {st t : State} (h : SameConfiguration st t) (hl : st.launchable) :
    t.launchable := by
  obtain ⟨-, hstart, hend, hread, hwrite⟩ := h
  simpa only [State.launchable, hstart, hend, hread, hwrite] using hl

theorem enterCall_callWf {st : State} (hl : st.launchable) (ticks : Int) : (enterCall ticks st).callWf :=
  (State.callWf_of_running rfl).mpr ⟨hl, rfl, rfl, le_refl ticks, .inl rfl⟩

theorem LoopRuns.callWf {st t : State} {ticks : Int} (h : LoopRuns st t) (hrun : st.phase = .running ticks)
    (hwf : st.callWf) : t.callWf := by
  obtain ⟨hl, htick, hres, hle, -⟩ := (State.callWf_of_running hrun).mp hwf
  obtain ⟨hpos, hmax, hmin⟩ := h.budget_bounds
  have hran := h.ran
  exact (State.callWf_of_running (hran.phase.trans hrun)).mpr ⟨hran.sameConfiguration.launchable hl,
    hran.tickBudget.trans htick, hran.result.trans hres, by omega, .inr (by omega)⟩

theorem LoopLeaves.callWf {st u : State} {status : ExitStatus} {ticks : Int} (h : LoopLeaves st status u)
    (hrun : st.phase = .running ticks) (hwf : st.callWf) : (exitCall ticks status u).callWf := by
  obtain ⟨-, -, -, hle, hlow⟩ := (State.callWf_of_running hrun).mp hwf
  obtain ⟨hexhausted, hhalted⟩ := h.budget_of_status
  rw [State.callWf_of_idle rfl]
  rintro r ⟨⟩
  simp only [CallResult.wf, State.exitCall_tickBudget, h.budget_eq]
  exact ⟨by omega, by omega, hexhausted, hhalted⟩

/-- A step keeps what holds of the call, whatever memory is. -/
theorem step_callWf {st t : State} (hwf : st.callWf) (h : step st = .next t) : t.callWf := by
  obtain ⟨-, rfl⟩ | ⟨ticks, -, hl, rfl⟩ | ⟨ticks, hrun, hloop⟩ := step_cases h
  · exact hwf
  · exact enterCall_callWf hl ticks
  · obtain ⟨status, u, hleaves, rfl⟩ | hruns := leaves_or_runs_of_loopStep hloop
    · exact hleaves.callWf hrun hwf
    · exact hruns.callWf hrun hwf

/-- A step keeps the canonical form of memory: its accesses do, and no entry or exit touches memory. -/
theorem step_memory_wf {st t : State} (hwf : Memory.wf st.memory) (h : step st = .next t) : Memory.wf t.memory := by
  obtain ⟨-, rfl⟩ | ⟨ticks, -, -, rfl⟩ | ⟨ticks, -, hloop⟩ := step_cases h
  · exact hwf
  · exact hwf
  · obtain hran | ⟨status, u, hran, rfl⟩ := loopStep_ran hloop
    · exact hran.wf hwf
    · exact hran.wf hwf

/-- Settles O56: memory by the accesses of the step, the call by its phase. -/
theorem stepsKeepTheInvariant : Obligations.StepsKeepTheInvariant := by
  rintro st t ⟨hmem, hcall⟩ hstep
  exact ⟨step_memory_wf hmem hstep, step_callWf hcall hstep⟩

/-- Settles O55: reset's memory lists nothing, and no call has been answered. -/
theorem resetMeetsTheInvariant : Obligations.ResetMeetsTheInvariant :=
  ⟨State.reset_memory_wf, (State.callWf_of_idle rfl).mpr nofun⟩

end Sys2Proof.Machine
end

section
/-! One step inside a call (R233 to R238, R243, R251): the entry, the stop tests and the exits as next states, and the fetch
of an instruction whose bytes are not special. -/

namespace Sys2Proof.Machine

theorem step_of_running {st : State} {ticks : Int} (h : st.phase = .running ticks) : step st = loopStep ticks st := by
  simp only [step, h]

/-- Settles O10, by the phase. -/
theorem entryCopiesTheRecord : Obligations.EntryCopiesTheRecord := by
  intro st
  refine ⟨fun hidle => ?_, fun ticks henter hl => ?_, fun ticks henter hl => ?_⟩
  · simp only [step, hidle]
  · simp only [step, henter, if_pos hl]
    rfl
  · simp only [step, henter, if_neg hl]

/-- Settles O11: the iteration leaves by the test that holds first. -/
theorem stopTestsInOrder : Obligations.StopTestsInOrder := by
  intro st ticks hrun
  rw [step_of_running hrun]
  exact ⟨fun hp => (LoopLeaves.stop (stopTest_eq_stopped hp)).loopStep_eq ticks,
    fun hp hbudget => (LoopLeaves.stop (stopTest_eq_exhausted hp hbudget)).loopStep_eq ticks⟩

/-! ### Fetching -/

/-- One fetch is one read at `pc`, which then advances modulo 2^16 (R81). -/
theorem fetchByte_eq (st : State) :
    fetchByte st = ((memRead st.work.pc st).1,
      (memRead st.work.pc st).2.withWork { st.work with pc := st.work.pc + 1 }) := by
  simp only [fetchByte, fetchTraps, if_true, State.setPc_eq, memRead_work]

theorem fetchByte_plain {st : State} (h : ¬ st.isSpecial st.work.pc) :
    fetchByte st = (st.byteAt st.work.pc, st.setPc (st.work.pc + 1)) := by
  rw [fetchByte_eq, memRead_plain h]
  rfl

/-- The work of an exit: only a halt moves `pc`, past the illegal byte (R233, R238). -/
theorem LoopLeaves.work_eq {st u : State} {status : ExitStatus} (h : LoopLeaves st status u) :
    u.work = if status = .haltedIllegalOpcode then { st.work with pc := st.work.pc + 1 } else st.work := by
  cases h with
  | stop hstop =>
    obtain ⟨rfl, -⟩ | ⟨rfl, -⟩ := stopTest_eq_some hstop <;> rfl
  | illegal _ hfetch =>
    rw [fetchInstr_illegal hfetch, fetchByte_eq]
    rfl

/-- Settles O9: the byte has no entry, so that its fetch is all that happens before the exit. -/
theorem illegalOpcodeHaltsTheCall : Obligations.IllegalOpcodeHaltsTheCall := by
  intro st ticks hrun hp hbudget hillegal
  have hleaves : LoopLeaves st .haltedIllegalOpcode (fetchByte st).2 :=
    .illegal (stopTest_eq_none_iff.mpr ⟨hp, hbudget⟩) (fetchInstr_of_no_entry hillegal)
  rw [step_of_running hrun, hleaves.loopStep_eq ticks, fetchByte_eq]
  simp only [exitCall, State.withWork, memRead_budget]

/-- Settles O12: an iteration that ends the call leaves it by an exit, and an exit is a flush. -/
theorem exitFlushesTheWorkingState : Obligations.ExitFlushesTheWorkingState := by
  intro st t ticks hrun hstep hidle
  rw [step_of_running hrun] at hstep
  obtain ⟨status, u, hleaves, rfl⟩ | hruns := leaves_or_runs_of_loopStep hstep
  · exact ⟨rfl, rfl, hleaves.budget_eq, status, rfl, hleaves.work_eq⟩
  · cases hidle.symm.trans (hruns.ran.phase.trans hrun)

/-! ### The decoded instruction (R235) -/

theorem step_of_fetchInstr_legal {st u : State} {ticks : Int} {i : Instr} (hrun : st.phase = .running ticks)
    (hp : st.work.p ≠ 0x00) (hbudget : 0 < st.budget) (hfetch : fetchInstr st = .legal i u) :
    step st = exec i u := by
  have hgo := stopTest_eq_none_iff.mpr ⟨hp, hbudget⟩
  simp only [step_of_running hrun, loopStep, hgo, hfetch]

/-- The state in which an instruction of `length` bytes executes: `pc` past it, its cost deducted (R94, R234). -/
def State.fetched (st : State) (length cycles : Nat) : State :=
  (st.setPc (st.work.pc + BitVec.ofNat 16 length)).charge cycles

/-- Where no byte of the instruction is special, the fetch reads its bytes from memory and leaves memory alone. -/
theorem fetchInstr_plain {st : State} {row : TableRow} (hrow : tableEntry (st.byteAt st.work.pc) = some row)
    (hplain : ∀ k < row.mode.operandBytes + 1, ¬ st.isSpecial (st.work.pc + BitVec.ofNat 16 k)) :
    let operands := [st.byteAt (st.work.pc + 1), st.byteAt (st.work.pc + 2)].take row.mode.operandBytes
    fetchInstr st = .legal (row.build (operands.getD 0 0) (operands.getD 1 0))
      (st.fetched (row.mode.operandBytes + 1) row.cycles) := by
  have hop : fetchByte st = (st.byteAt st.work.pc, st.setPc (st.work.pc + 1)) :=
    fetchByte_plain (by simpa using hplain 0 (Nat.succ_pos _))
  have h2 : st.work.pc + 1 + 1 = st.work.pc + 2 := add_assoc _ _ _
  have h3 : st.work.pc + 2 + 1 = st.work.pc + 3 := add_assoc _ _ _
  have hk := Laws.operandBytes_le_two row.mode
  rw [fetchInstr_of_entry (by rwa [hop]), hop]
  dsimp only [fetchOperands]
  generalize row.mode.operandBytes = k at hplain hk
  have hb1 (h : 1 ≤ k) : fetchByte ((st.setPc (st.work.pc + 1)).charge row.cycles) =
      (st.byteAt (st.work.pc + 1), (st.setPc (st.work.pc + 2)).charge row.cycles) := by
    rw [fetchByte_plain (hplain 1 (by omega)), State.charge_work, State.setPc_work, h2]
    rfl
  have hb2 (h : 2 ≤ k) : fetchByte ((st.setPc (st.work.pc + 2)).charge row.cycles) =
      (st.byteAt (st.work.pc + 2), (st.setPc (st.work.pc + 3)).charge row.cycles) := by
    rw [fetchByte_plain (hplain 2 (by omega)), State.charge_work, State.setPc_work, h3]
    rfl
  match k, hk with
  | 0, _ => rfl
  | 1, _ =>
    rw [hb1 le_rfl]
    rfl
  | 2, _ =>
    rw [hb1 one_le_two, hb2 le_rfl]
    rfl

theorem length_build {row : TableRow} (h : row ∈ dispatchTable) (b1 b2 : Byte) :
    (row.build b1 b2).length = row.mode.operandBytes + 1 := by
  have hk := Laws.operandBytes_le_two row.mode
  rw [Instr.length, Laws.encode_build h, List.length_cons, List.length_take_of_le hk]

/-- Settles O8: the decoder and the fetch build the instruction from the same row and the same bytes. -/
theorem stepRunsTheDecodedInstruction : Obligations.StepRunsTheDecodedInstruction := by
  refine ⟨?_, fun st u ticks i => step_of_fetchInstr_legal, ?_, fetchByte_eq⟩
  · intro st ticks i rest row hrun hp hbudget hplain hdecode hrow
    obtain ⟨op, row', operands, hrow', hlen, hbytes, rfl⟩ := Laws.exists_row_of_decode hdecode
    obtain ⟨rfl, htail⟩ := List.cons.inj hbytes
    obtain rfl : row = row' := Option.some.inj (hrow.symm.trans hrow')
    rw [length_build (Laws.tableEntry_mem hrow)] at hplain ⊢
    have hfetch := fetchInstr_plain hrow hplain
    rw [htail, List.take_left' hlen] at hfetch
    exact step_of_fetchInstr_legal hrun hp hbudget hfetch
  · intro st ticks row hrun hp hbudget hrow
    have hcharged : (fetchByte st).2.charge row.cycles =
        { (fetchByte st).2 with budget := st.budget - row.cycles } := by
      rw [State.charge, fetchByte_budget]
    have hfetch := fetchInstr_of_entry hrow
    rw [fetchOperands, hcharged] at hfetch
    refine ⟨fun hk => ?_, fun hk => ?_, fun hk => ?_⟩
    all_goals
      rw [hk] at hfetch
      exact step_of_fetchInstr_legal hrun hp hbudget hfetch

end Sys2Proof.Machine
end

section
/-! A push followed by a pull on a stack slot in RAM (spec/95_test_vectors.md L1-7). -/

namespace Sys2Proof.Machine

/-- After a push in RAM the pushed byte stands in its slot. -/
theorem holdsPlain_push {st : State} (hm : Memory.wf st.memory) (hram : st.isRam (stackAddr st.work.s)) (v : Byte) :
    HoldsPlain (push v st) (stackAddr st.work.s) v := by
  rw [push_eq, memWrite_ram hram]
  exact (holdsPlain_setByte hm hram v).withWork _

/-- Settles O33: the pull reads the byte that the push stored, and `s` goes down and up by one. -/
theorem pushThenPullRestores : Obligations.PushThenPullRestores := by
  intro st hm hram
  have hs : st.work.s - 1 + 1 = st.work.s := sub_add_cancel _ _
  constructor
  · refine ⟨push st.work.a st, _, rfl, exec_of_effect rfl rfl (plaOp_eq _), ?_⟩
    simp only [(holdsPlain_push hm hram st.work.a).memRead_eq, State.withWork_work, push_work, hs]
  · refine ⟨push (st.work.p ||| 0x30) st, _, rfl, exec_of_effect rfl rfl (plpOp_eq _), ?_⟩
    simp only [(holdsPlain_push hm hram (st.work.p ||| 0x30)).memRead_eq, State.withWork_work, push_work, hs]

end Sys2Proof.Machine
end

section
/-! A call run to its end through the execute port (R9, R239, R263): the iterations of its loop as one relation, that it ends
within its steps, and what its answer is bounded by. -/

namespace Sys2Proof.Machine

/-! ### The loop run to its end -/

/-- From `st` the loop of R243 runs some instructions and then leaves the call with this status, the working state being
`u`. -/
inductive Finishes : State → ExitStatus → State → Prop
  | leaves {st u : State} {status : ExitStatus} (h : LoopLeaves st status u) : Finishes st status u
  | runs {st t u : State} {status : ExitStatus} (h : LoopRuns st t) (hrest : Finishes t status u) :
      Finishes st status u

theorem leaves_or_runs (st : State) : (∃ status u, LoopLeaves st status u) ∨ ∃ t, LoopRuns st t := by
  obtain ⟨t, ht⟩ := loopStep_answers 0 st
  obtain ⟨status, u, hleaves, -⟩ | hruns := leaves_or_runs_of_loopStep ht
  · exact .inl ⟨status, u, hleaves⟩
  · exact .inr ⟨t, hruns⟩

/-- The loop ends: each instruction uses up some of the budget, and none runs without one. -/
theorem exists_finishes (st : State) : ∃ status u, Finishes st status u := by
  induction hn : st.budget.toNat using Nat.strong_induction_on generalizing st with
  | _ n ih =>
    obtain ⟨status, u, hleaves⟩ | ⟨t, hruns⟩ := leaves_or_runs st
    · exact ⟨status, u, .leaves hleaves⟩
    · obtain ⟨hpos, hmax, -⟩ := hruns.budget_bounds
      obtain ⟨status, u, hrest⟩ := ih t.budget.toNat (by omega) t rfl
      exact ⟨status, u, .runs hruns hrest⟩

/-- A running call that is as `callWf` says answers as `callWf` says. -/
theorem Finishes.callWf {st u : State} {status : ExitStatus} {ticks : Int} (h : Finishes st status u)
    (hrun : st.phase = .running ticks) (hwf : st.callWf) : (exitCall ticks status u).callWf := by
  induction h with
  | leaves hleaves => exact hleaves.callWf hrun hwf
  | runs hruns _ ih => exact ih (hruns.ran.phase.trans hrun) (hruns.callWf hrun hwf)

/-! ### The loop is deterministic -/

theorem LoopRuns.unique {st t t' : State} (h : LoopRuns st t) (h' : LoopRuns st t') : t = t' := by
  obtain ⟨-, i, u, hfetch, hexec⟩ := h
  obtain ⟨-, i', u', hfetch', hexec'⟩ := h'
  cases hfetch.symm.trans hfetch'
  exact Host.Outcome.next.inj (hexec.symm.trans hexec')

theorem LoopLeaves.unique {st u u' : State} {status status' : ExitStatus} (h : LoopLeaves st status u)
    (h' : LoopLeaves st status' u') : status = status' ∧ u = u' := by
  cases h with
  | stop hstop =>
    cases h' with
    | stop hstop' => exact ⟨Option.some.inj (hstop.symm.trans hstop'), rfl⟩
    | illegal hgo => cases hgo.symm.trans hstop
  | illegal hgo hfetch =>
    cases h' with
    | stop hstop => cases hgo.symm.trans hstop
    | illegal _ hfetch' => exact ⟨rfl, (fetchInstr_illegal hfetch).trans (fetchInstr_illegal hfetch').symm⟩

theorem LoopRuns.not_leaves {st t u : State} {status : ExitStatus} (h : LoopRuns st t) : ¬ LoopLeaves st status u := by
  obtain ⟨hgo, i, s, hfetch, -⟩ := h
  intro hleaves
  cases hleaves with
  | stop hstop => cases hgo.symm.trans hstop
  | illegal _ hfetch' => cases hfetch.symm.trans hfetch'

theorem Finishes.of_leaves {st u u' : State} {status status' : ExitStatus} (h : Finishes st status u)
    (hleaves : LoopLeaves st status' u') : status = status' ∧ u = u' := by
  cases h with
  | leaves h => exact h.unique hleaves
  | runs hruns => exact absurd hleaves hruns.not_leaves

theorem Finishes.of_runs {st t u : State} {status : ExitStatus} (h : Finishes st status u) (hruns : LoopRuns st t) :
    Finishes t status u := by
  cases h with
  | leaves hleaves => exact absurd hleaves hruns.not_leaves
  | runs hruns' hrest => exact hruns'.unique hruns ▸ hrest

theorem Finishes.unique {st u u' : State} {status status' : ExitStatus} (h : Finishes st status u)
    (h' : Finishes st status' u') : status = status' ∧ u = u' := by
  induction h with
  | leaves hleaves =>
    obtain ⟨rfl, rfl⟩ := h'.of_leaves hleaves
    exact ⟨rfl, rfl⟩
  | runs hruns _ ih => exact ih (h'.of_runs hruns)

/-! ### Steps one after another -/

theorem coreRun_of_next (M : Host.Core) {s t : M.State} (h : M.step s = .next t) (n : Nat) :
    M.run (n + 1) s = M.run n t := by
  rw [Host.Core.run, h]

theorem coreRun_of_refused (M : Host.Core) {s : M.State} {r : M.Refusal} (h : M.step s = .refused r) (n : Nat) :
    M.run (n + 1) s = .refused r := by
  rw [Host.Core.run, h]

/-- `n` steps of the machine. -/
def runSteps (n : Nat) (st : State) : Outcome := Sys2Proof.core.run n st

theorem runSteps_of_next {st t : State} (h : step st = .next t) (n : Nat) : runSteps (n + 1) st = runSteps n t :=
  coreRun_of_next Sys2Proof.core h n

theorem runSteps_of_refused {st : State} {r : Refusal} (h : step st = .refused r) (n : Nat) :
    runSteps (n + 1) st = .refused r :=
  coreRun_of_refused Sys2Proof.core h n

/-- Between calls further steps change nothing (log 11). -/
theorem runSteps_of_idle {st : State} (h : st.phase = .idle) (n : Nat) : runSteps n st = .next st := by
  have hstep : step st = .next st := by simp only [step, h]
  induction n with
  | zero => rfl
  | succ n ih => rw [runSteps_of_next hstep, ih]

/-- As many steps as the budget has cycles, and one more, take a running call to its exit. -/
theorem Finishes.runSteps_eq {st u : State} {status : ExitStatus} {ticks : Int} (h : Finishes st status u)
    (hrun : st.phase = .running ticks) {n : Nat} (hn : st.budget.toNat ≤ n) :
    runSteps (n + 1) st = .next (exitCall ticks status u) := by
  induction h generalizing n with
  | leaves hleaves =>
    rw [runSteps_of_next ((step_of_running hrun).trans (hleaves.loopStep_eq ticks)), runSteps_of_idle rfl]
  | runs hruns _ ih =>
    obtain ⟨hpos, hmax, -⟩ := hruns.budget_bounds
    obtain ⟨n, rfl⟩ : ∃ k, n = k + 1 := Nat.exists_eq_succ_of_ne_zero (by omega)
    rw [runSteps_of_next ((step_of_running hrun).trans (hruns.loopStep_eq ticks))]
    exact ih (hruns.ran.phase.trans hrun) (by omega)

/-! ### The execute port -/

theorem execute_of_idle {st : State} (h : st.phase = .idle) (ticks : Int) :
    execute ticks st = some (runSteps (ticks.toNat + 2) { st with phase := .entering ticks }) := by
  rw [execute, issueExecute_of_idle h]
  rfl

theorem execute_of_finishes {st u : State} {status : ExitStatus} {ticks : Int} (hidle : st.phase = .idle)
    (hl : st.launchable) (h : Finishes (enterCall ticks st) status u) :
    execute ticks st = some (.next (exitCall ticks status u)) := by
  have hentry : step { st with phase := .entering ticks } = .next (enterCall ticks st) := if_pos hl
  have hend : runSteps (ticks.toNat + 1) (enterCall ticks st) = .next (exitCall ticks status u) :=
    h.runSteps_eq rfl le_rfl
  rw [execute_of_idle hidle, runSteps_of_next hentry, hend]

/-- A call that comes to an end was configured, and ends as its loop does. -/
theorem finishes_of_execute {st t : State} {ticks : Int} (hidle : st.phase = .idle)
    (h : execute ticks st = some (.next t)) :
    ∃ status u, Finishes (enterCall ticks st) status u ∧ t = exitCall ticks status u := by
  by_cases hl : st.launchable
  · obtain ⟨status, u, hfinishes⟩ := exists_finishes (enterCall ticks st)
    rw [execute_of_finishes hidle hl hfinishes] at h
    cases h
    exact ⟨status, u, hfinishes, rfl⟩
  · have hentry : step { st with phase := .entering ticks } = .refused .launchNotConfigured := if_neg hl
    rw [execute_of_idle hidle, runSteps_of_refused hentry] at h
    cases h

/-- Settles O15: the call ends as its loop does, and `callWf` bounds the answer. -/
theorem callEndsWithinItsBudget : Obligations.CallEndsWithinItsBudget := by
  intro st ticks hidle hl
  obtain ⟨status, u, hfinishes⟩ := exists_finishes (enterCall ticks st)
  have hcall := (State.callWf_of_idle rfl).mp (hfinishes.callWf rfl (enterCall_callWf hl ticks))
  obtain ⟨hnonneg, hoverrun, hexhausted, hhalted⟩ :
    0 ≤ ticks - u.budget ∧ (ticks - u.budget = 0 ∨ -6 ≤ u.budget) ∧ (status = .exhausted → u.budget ≤ 0) ∧
      (status = .haltedIllegalOpcode → 0 < u.budget) := hcall _ rfl
  refine ⟨_, _, execute_of_finishes hidle hl hfinishes, rfl, rfl, rfl, hnonneg, fun hnothing => ?_,
    fun hpos _ hs => ?_, fun hs => sub_lt_self ticks (hhalted hs)⟩
  · have hstops : stopTest (enterCall ticks st) ≠ none := by
      rw [ne_eq, stopTest_eq_none_iff, not_and_or, not_not, not_lt]
      exact hnothing.symm
    obtain ⟨status', hstop⟩ := Option.ne_none_iff_exists'.mp hstops
    obtain ⟨-, rfl⟩ := hfinishes.of_leaves (.stop hstop)
    exact ⟨sub_self ticks, rfl, rfl⟩
  · have hspent := hexhausted hs
    show ticks ≤ ticks - u.budget ∧ ticks - u.budget ≤ ticks + 6
    omega

/-- Settles O17: the instruction costs the whole budget of one cycle, so that the next test ends the call. -/
theorem executeOneRunsOneInstruction : Obligations.ExecuteOneRunsOneInstruction := by
  intro st hidle hl hp
  have hgo : stopTest (enterCall 1 st) = none := stopTest_eq_none_iff.mpr ⟨hp, one_pos⟩
  refine ⟨fun i s' t hfetch hexec => ?_, fun s' hfetch => ?_⟩
  · have hruns : LoopRuns (enterCall 1 st) t := ⟨hgo, i, s', hfetch, hexec⟩
    obtain ⟨-, hmax, -⟩ := hruns.budget_bounds
    have hstop : stopTest t = some (if t.work.p = 0x00 then .stopped else .exhausted) := by
      split
      · exact stopTest_eq_stopped ‹_›
      · exact stopTest_eq_exhausted ‹_› (by rw [State.enterCall_budget] at hmax; omega)
    exact execute_of_finishes hidle hl (.runs hruns (.leaves (.stop hstop)))
  · exact execute_of_finishes hidle hl (.leaves (.illegal hgo hfetch))

end Sys2Proof.Machine
end

section
/-! Two runs of one machine in different calls (R242): what a run does depends on the call it is part of, its record, its
budgets and its phase, only through a trap that the host's list does not answer (log 5). From this follows that two calls
with the debt carried end where one call with the sum ends. -/

namespace Sys2Proof.Machine

/-! ### The call a machine is in -/

/-- What a state holds of the call it is in. -/
structure CallFrame where
  /-- the VM record's registers, which a running call does not touch (R35) -/
  record : Regs
  /-- the VM record's tick budget (R34) -/
  tickBudget : Int
  phase : Phase
  result : Option CallResult
  /-- how many cycles more the working budget has than in the call compared with -/
  further : Int

/-- The same machine in another call, with so many further cycles in its budget. -/
def State.inCall (st : State) (c : CallFrame) : State :=
  { st with
    record := c.record
    tickBudget := c.tickBudget
    phase := c.phase
    result := c.result
    budget := st.budget + c.further }

/-! ### Traps and the host's answers -/

/-- Each trap of the run used up one listed answer, as far as there were any. -/
def UsesAnswers (st t : State) : Prop :=
  ∃ evs, t.trapLog = evs ++ st.trapLog ∧ t.hostAnswers = st.hostAnswers.drop evs.length

/-- The run made no more traps than there were answers listed: each was answered from the list. -/
def AnsweredFromList (st t : State) : Prop := t.trapLog.length ≤ st.trapLog.length + st.hostAnswers.length

theorem UsesAnswers.refl (st : State) : UsesAnswers st st := ⟨[], rfl, rfl⟩

theorem UsesAnswers.trans {st t u : State} (h : UsesAnswers st t) (h' : UsesAnswers t u) : UsesAnswers st u := by
  obtain ⟨evs, hlog, hans⟩ := h
  obtain ⟨evs', hlog', hans'⟩ := h'
  refine ⟨evs' ++ evs, by rw [hlog', hlog, List.append_assoc], ?_⟩
  rw [hans', hans, List.drop_drop, List.length_append, Nat.add_comm]

/-- Where the whole run was answered from the list, both its parts were. -/
theorem UsesAnswers.answered_split {st t u : State} (h : UsesAnswers st t) (h' : UsesAnswers t u)
    (ha : AnsweredFromList st u) : AnsweredFromList st t ∧ AnsweredFromList t u := by
  obtain ⟨evs, hlog, hans⟩ := h
  obtain ⟨evs', hlog', -⟩ := h'
  simp only [AnsweredFromList, hlog', hlog, hans, List.length_append, List.length_drop] at ha ⊢
  omega

/-! ### Operations that run in lockstep -/

/-- The operation uses up one listed answer for each trap, and where these suffice it does the same in every call. -/
structure Lockstep {α : Type} (op : State → α × State) : Prop where
  uses : ∀ st, UsesAnswers st (op st).2
  inCall : ∀ st c, AnsweredFromList st (op st).2 → op (st.inCall c) = ((op st).1, (op st).2.inCall c)

/-- `Lockstep` for an operation without an answer. -/
abbrev UpdateLockstep (f : State → State) : Prop := Lockstep fun st => ((), f st)

theorem Lockstep.pure {α : Type} (a : α) : Lockstep fun st => (a, st) := ⟨UsesAnswers.refl, fun _ _ _ => rfl⟩

theorem Lockstep.work : Lockstep fun st => (st.work, st) := ⟨UsesAnswers.refl, fun _ _ _ => rfl⟩

/-- One operation after another, the second by what the first answered. -/
theorem Lockstep.bind {α β : Type} {f : State → α × State} {g : α → State → β × State} (hf : Lockstep f)
    (hg : ∀ a, Lockstep (g a)) : Lockstep fun st => g (f st).1 (f st).2 := by
  refine ⟨fun st => (hf.uses st).trans ((hg _).uses _), fun st c ha => ?_⟩
  obtain ⟨ha₁, ha₂⟩ := (hf.uses st).answered_split ((hg _).uses _) ha
  rw [hf.inCall st c ha₁]
  exact (hg _).inCall _ c ha₂

/-- A write of the working registers by their old values. -/
theorem UpdateLockstep.of_work {f : State → State} (hf : ∀ st, f st = st.withWork (f st).work)
    (hwork : ∀ st c, (f (st.inCall c)).work = (f st).work) : UpdateLockstep f := by
  refine ⟨fun st => ?_, fun st c _ => ?_⟩
  · rw [hf st]
    exact UsesAnswers.refl st
  · rw [hf (st.inCall c), hwork, hf st]
    rfl

theorem charge_lockstep (n : Nat) : UpdateLockstep fun st => st.charge n := by
  refine ⟨UsesAnswers.refl, fun st c _ => ?_⟩
  have hbudget : st.budget + c.further - n = st.budget - n + c.further := by omega
  simp only [State.charge, State.inCall, hbudget]

theorem setPc_lockstep (v : Word) : UpdateLockstep fun st => st.setPc v := .of_work (fun _ => rfl) fun _ _ => rfl

theorem setS_lockstep (v : Byte) : UpdateLockstep fun st => st.setS v := .of_work (fun _ => rfl) fun _ _ => rfl

theorem setP_lockstep (v : Byte) : UpdateLockstep fun st => st.setP v := .of_work (fun _ => rfl) fun _ _ => rfl

theorem assignA_lockstep (v : Byte) : UpdateLockstep (assignA v) := .of_work (fun _ => rfl) fun _ _ => rfl

/-! ### Memory accesses -/

theorem readTrap_of_answers {st : State} {ans : TrapAnswer} {rest : List TrapAnswer}
    (h : st.hostAnswers = ans :: rest) (addr : Word) :
    readTrap addr st = (ans.value, State.endTrap { st with
      specialEvent := { st.specialEvent with address := addr }
      memory := Memory.write (Memory.pokeAll st.memory ans.pokes) addr.toNat ans.value } (.read addr ans.value)) := by
  simp only [readTrap, State.readAnswer, h]

theorem writeTrap_of_answers {st : State} {ans : TrapAnswer} {rest : List TrapAnswer}
    (h : st.hostAnswers = ans :: rest) (addr : Word) (v : Byte) :
    writeTrap addr v st = State.endTrap { st with
      specialEvent := { address := addr, value := v }
      memory := Memory.pokeAll st.memory ans.pokes } (.write addr v) := by
  simp only [writeTrap, State.writeAnswer, h]

theorem usesAnswers_endTrap (st : State) (ev : TrapEvent) : UsesAnswers st (st.endTrap ev) :=
  ⟨[ev], rfl, List.drop_one.symm⟩

/-- A trap that was answered from the list found an answer there. -/
theorem exists_answer {st t : State} {ev : TrapEvent} (hlog : t.trapLog = ev :: st.trapLog)
    (ha : AnsweredFromList st t) : ∃ ans rest, st.hostAnswers = ans :: rest := by
  apply List.exists_cons_of_length_pos
  simp only [AnsweredFromList, hlog, List.length_cons] at ha
  omega

theorem memRead_lockstep (addr : Word) : Lockstep (memRead addr) := by
  refine ⟨fun st => ?_, fun st c ha => ?_⟩
  · obtain ⟨-, h⟩ | ⟨-, h, -⟩ := memRead_cases addr st
    · rw [h]
      exact UsesAnswers.refl st
    · rw [h]
      exact usesAnswers_endTrap _ _
  · obtain ⟨hs, h⟩ | ⟨hs, h, hlog⟩ := memRead_cases addr st
    · rw [h, memRead_plain (st := st.inCall c) hs]
      rfl
    · obtain ⟨ans, rest, hans⟩ := exists_answer hlog ha
      rw [h, memRead_special (st := st.inCall c) hs, readTrap_of_answers hans,
        readTrap_of_answers (st := st.inCall c) hans]
      rfl

theorem memWrite_lockstep (addr : Word) (v : Byte) : UpdateLockstep (memWrite addr v) := by
  refine ⟨fun st => ?_, fun st c ha => ?_⟩
  · obtain ⟨-, h⟩ | ⟨-, h⟩ | ⟨-, h, -⟩ := memWrite_cases addr v st
    · rw [h]
      exact UsesAnswers.refl st
    · rw [h]
      exact UsesAnswers.refl st
    · rw [h]
      exact usesAnswers_endTrap _ _
  · obtain ⟨hram, h⟩ | ⟨hrom, h⟩ | ⟨hs, h, hlog⟩ := memWrite_cases addr v st
    · rw [h, memWrite_ram (st := st.inCall c) hram]
      rfl
    · rw [h, memWrite_rom (st := st.inCall c) hrom]
    · obtain ⟨ans, rest, hans⟩ := exists_answer hlog ha
      rw [h, memWrite_special (st := st.inCall c) hs, writeTrap_of_answers hans,
        writeTrap_of_answers (st := st.inCall c) hans]
      rfl

theorem memReadPair_lockstep (lo hi : Word) : Lockstep (memReadPair lo hi) :=
  ((memRead_lockstep lo).bind fun l => (memRead_lockstep hi).bind fun h => .pure (wordOf h l) :)

theorem memReadWord_lockstep (addr : Word) : Lockstep (memReadWord addr) := memReadPair_lockstep addr (addr + 1)

/-! ### Operands -/

theorem resolve_lockstep (e : Ea) : Lockstep (resolve e) := by
  cases e with
  | zp b => exact .pure (zext16 b)
  | abs w => exact .pure w
  | zpX b => exact (Lockstep.work.bind fun w => .pure (zext16 (b + w.x)) :)
  | zpY b => exact (Lockstep.work.bind fun w => .pure (zext16 (b + w.y)) :)
  | absX v => exact (Lockstep.work.bind fun w => .pure (v + zext16 w.x) :)
  | absY v => exact (Lockstep.work.bind fun w => .pure (v + zext16 w.y) :)
  | indX b => exact (Lockstep.work.bind fun w => memReadWord_lockstep (zext16 b + zext16 w.x) :)
  | indY b =>
    exact (Lockstep.work.bind fun w => (memReadWord_lockstep (zext16 b)).bind fun ptr => .pure (ptr + zext16 w.y) :)
  | ind w => exact memReadWord_lockstep w
  | rel b => exact (Lockstep.work.bind fun w => .pure (w.pc + BitVec.ofInt 16 (sext8 b)) :)

theorem loadedOperand_lockstep (o : Operand) : Lockstep (loadedOperand o) := by
  cases o with
  | imm b => exact .pure b
  | mem e => exact ((resolve_lockstep e).bind memRead_lockstep :)
  | acc | implied => exact .pure 0

theorem storeOperand_lockstep (o : Operand) (v : Byte) : UpdateLockstep (storeOperand o v) := by
  cases o with
  | mem e => exact ((resolve_lockstep e).bind fun addr => memWrite_lockstep addr v :)
  | imm | acc | implied => exact .pure ()

theorem modifyOperand_lockstep (f : Byte → Byte → Byte × Byte) (o : Operand) : UpdateLockstep (modifyOperand f o) := by
  cases o with
  | mem e =>
    exact ((resolve_lockstep e).bind fun addr => (memRead_lockstep addr).bind fun old => Lockstep.work.bind fun w =>
      (memWrite_lockstep addr (f old w.p).1).bind fun _ => setP_lockstep (f old w.p).2 :)
  | acc => exact .of_work (fun _ => rfl) fun _ _ => rfl
  | imm | implied => exact .pure ()

theorem branchOperand_lockstep (cond : Bool) (o : Operand) : UpdateLockstep (branchOperand cond o) := by
  unfold branchOperand
  split
  · cases cond
    · exact .pure ()
    · exact ((resolve_lockstep (.rel _)).bind fun target => (setPc_lockstep target).bind fun _ =>
        charge_lockstep branchTakenExtra :)
  · exact .pure ()

theorem jumpOperand_lockstep (o : Operand) : UpdateLockstep (jumpOperand o) := by
  cases o with
  | mem e => exact ((resolve_lockstep e).bind setPc_lockstep :)
  | imm | acc | implied => exact .pure ()

/-! ### The stack -/

theorem push_lockstep (v : Byte) : UpdateLockstep (push v) :=
  (Lockstep.work.bind fun w => (memWrite_lockstep (stackAddr w.s) v).bind fun _ => setS_lockstep (w.s - 1) :)

theorem pull_lockstep : Lockstep pull :=
  (Lockstep.work.bind fun w => (setS_lockstep (w.s + 1)).bind fun _ => memRead_lockstep (stackAddr (w.s + 1)) :)

theorem pushWord_lockstep (w : Word) : UpdateLockstep (pushWord w) :=
  ((push_lockstep (hiByte w)).bind fun _ => push_lockstep (loByte w) :)

theorem pullWord_lockstep : Lockstep pullWord :=
  (pull_lockstep.bind fun lo => pull_lockstep.bind fun hi => .pure (wordOf hi lo) :)

theorem callOperand_lockstep (o : Operand) : UpdateLockstep (callOperand o) := by
  unfold callOperand
  split
  · exact (Lockstep.work.bind fun w => (pushWord_lockstep (w.pc - 1)).bind fun _ => setPc_lockstep _ :)
  · exact .pure ()

theorem takeBreak_lockstep : UpdateLockstep takeBreak :=
  (Lockstep.work.bind fun w => (pushWord_lockstep (w.pc - 1 + brkPushOffset)).bind fun _ =>
    Lockstep.work.bind fun w => (setP_lockstep (w.p ||| 0x14)).bind fun _ =>
    Lockstep.work.bind fun w => (push_lockstep (w.p ||| 0x20)).bind fun _ =>
    (memReadWord_lockstep brkVector).bind setPc_lockstep :)

theorem returnFromBreak_lockstep : UpdateLockstep returnFromBreak :=
  (pull_lockstep.bind fun flags => (setP_lockstep flags).bind fun _ => pullWord_lockstep.bind setPc_lockstep :)

/-! ### Every instruction -/

/-- An instruction that loads its operand runs in lockstep if on each immediate byte it does. -/
theorem effect_lockstep_of_load {m : Mnemonic} (o : Operand)
    (hload : ∀ st, effect m o st = effect m (.imm (loadedOperand o st).1) (loadedOperand o st).2)
    (himm : ∀ v, UpdateLockstep (effect m (.imm v))) : UpdateLockstep (effect m o) := by
  rw [show effect m o = _ from funext hload]
  exact (loadedOperand_lockstep o).bind (g := fun v st => ((), effect m (.imm v) st)) himm

theorem effect_lockstep (m : Mnemonic) (o : Operand) : UpdateLockstep (effect m o) := by
  cases m
  case ora | and | eor | bit | cmp | cpx | cpy | adc | sbc | lda | ldx | ldy =>
    exact effect_lockstep_of_load o (fun _ => rfl) fun _ => .of_work (fun _ => rfl) fun _ _ => rfl
  case asl | lsr | rol | ror | inc | dec => exact modifyOperand_lockstep _ o
  case sta => exact (Lockstep.work.bind fun w => storeOperand_lockstep o w.a :)
  case stx => exact (Lockstep.work.bind fun w => storeOperand_lockstep o w.x :)
  case sty => exact (Lockstep.work.bind fun w => storeOperand_lockstep o w.y :)
  case pha => exact (Lockstep.work.bind fun w => push_lockstep w.a :)
  case php => exact (Lockstep.work.bind fun w => push_lockstep (w.p ||| 0x30) :)
  case pla => exact (pull_lockstep.bind assignA_lockstep :)
  case plp => exact (pull_lockstep.bind setP_lockstep :)
  case jsr => exact callOperand_lockstep o
  case rts => exact (pullWord_lockstep.bind fun back => setPc_lockstep (back + 1) :)
  case brk => exact takeBreak_lockstep
  case rti => exact returnFromBreak_lockstep
  case bpl => exact (Lockstep.work.bind fun w => branchOperand_lockstep (!flagN w.p) o :)
  case bmi => exact (Lockstep.work.bind fun w => branchOperand_lockstep (flagN w.p) o :)
  case bvc => exact (Lockstep.work.bind fun w => branchOperand_lockstep (!flagV w.p) o :)
  case bvs => exact (Lockstep.work.bind fun w => branchOperand_lockstep (flagV w.p) o :)
  case bcc => exact (Lockstep.work.bind fun w => branchOperand_lockstep (!flagC w.p) o :)
  case bcs => exact (Lockstep.work.bind fun w => branchOperand_lockstep (flagC w.p) o :)
  case bne => exact (Lockstep.work.bind fun w => branchOperand_lockstep (!flagZ w.p) o :)
  case beq => exact (Lockstep.work.bind fun w => branchOperand_lockstep (flagZ w.p) o :)
  case jmp => exact jumpOperand_lockstep o
  case nop => exact .pure ()
  all_goals exact .of_work (fun _ => rfl) fun _ _ => rfl

/-! ### Fetching -/

/-- What a fetch comes to, as an operation's answer and its state; no instruction where the byte is illegal. -/
def Fetched.pair : Fetched → Option Instr × State
  | .illegal st => (none, st)
  | .legal i st => (some i, st)

/-- The same fetch in another call. -/
def Fetched.inCall (f : Fetched) (c : CallFrame) : Fetched :=
  match f with
  | .illegal st => .illegal (st.inCall c)
  | .legal i st => .legal i (st.inCall c)

theorem Fetched.pair_injective : Function.Injective Fetched.pair := by
  rintro (u | ⟨i, u⟩) (u' | ⟨i', u'⟩) h <;> cases h <;> rfl

theorem Fetched.pair_inCall (f : Fetched) (c : CallFrame) : (f.inCall c).pair = (f.pair.1, f.pair.2.inCall c) := by
  cases f <;> rfl

theorem fetchByte_lockstep : Lockstep fetchByte :=
  (Lockstep.work.bind fun w => (memRead_lockstep w.pc).bind fun b => (setPc_lockstep (w.pc + 1)).bind fun _ =>
    .pure b :)

theorem fetchOperands_lockstep (row : TableRow) : Lockstep fun st => (fetchOperands row st).pair := by
  unfold fetchOperands
  dsimp only
  split
  · exact ((charge_lockstep row.cycles).bind fun _ => .pure (some (row.build 0 0)) :)
  · exact ((charge_lockstep row.cycles).bind fun _ => fetchByte_lockstep.bind fun b => .pure (some (row.build b 0)) :)
  · exact ((charge_lockstep row.cycles).bind fun _ => fetchByte_lockstep.bind fun b1 =>
      fetchByte_lockstep.bind fun b2 => .pure (some (row.build b1 b2)) :)

/-- What follows the opcode byte `op` (R233). -/
def fetchBehind (op : Byte) (st : State) : Fetched :=
  match tableEntry op with
  | none => .illegal st
  | some row => fetchOperands row st

theorem fetchInstr_eq_fetchBehind (st : State) : fetchInstr st = fetchBehind (fetchByte st).1 (fetchByte st).2 := rfl

theorem fetchBehind_lockstep (op : Byte) : Lockstep fun st => (fetchBehind op st).pair := by
  unfold fetchBehind
  cases tableEntry op with
  | none => exact .pure none
  | some row => exact fetchOperands_lockstep row

theorem fetchInstr_lockstep : Lockstep fun st => (fetchInstr st).pair := by
  simp only [fetchInstr_eq_fetchBehind]
  exact fetchByte_lockstep.bind fetchBehind_lockstep

theorem fetchInstr_inCall {st u : State} {f : Fetched} (h : fetchInstr st = f) (hu : f.pair.2 = u)
    (ha : AnsweredFromList st u) (c : CallFrame) : fetchInstr (st.inCall c) = f.inCall c := by
  subst h hu
  apply Fetched.pair_injective
  rw [Fetched.pair_inCall]
  exact fetchInstr_lockstep.inCall st c ha

theorem usesAnswers_of_fetchInstr {st u : State} {f : Fetched} (h : fetchInstr st = f) (hu : f.pair.2 = u) :
    UsesAnswers st u := by
  subst h hu
  exact fetchInstr_lockstep.uses st

/-! ### The loop -/

theorem LoopLeaves.usesAnswers {st u : State} {status : ExitStatus} (h : LoopLeaves st status u) :
    UsesAnswers st u := by
  cases h with
  | stop => exact UsesAnswers.refl st
  | illegal _ hfetch => exact usesAnswers_of_fetchInstr hfetch rfl

theorem LoopRuns.usesAnswers {st t : State} (h : LoopRuns st t) : UsesAnswers st t := by
  obtain ⟨-, i, u, hfetch, hexec⟩ := h
  rw [eq_effect_of_exec hexec]
  exact (usesAnswers_of_fetchInstr hfetch rfl).trans ((effect_lockstep _ _).uses u)

/-- Where the stop test answers alike, a call is left alike. -/
theorem LoopLeaves.inCall {st u : State} {status : ExitStatus} (h : LoopLeaves st status u) {c : CallFrame}
    (hstop : stopTest (st.inCall c) = stopTest st) (ha : AnsweredFromList st u) :
    LoopLeaves (st.inCall c) status (u.inCall c) := by
  cases h with
  | stop h => exact .stop (hstop.trans h)
  | illegal hgo hfetch => exact .illegal (hstop.trans hgo) (fetchInstr_inCall hfetch rfl ha c)

/-- Where the stop test lets it run, an instruction runs in every call alike. -/
theorem LoopRuns.inCall {st t : State} (h : LoopRuns st t) {c : CallFrame} (hgo : stopTest (st.inCall c) = none)
    (ha : AnsweredFromList st t) : LoopRuns (st.inCall c) (t.inCall c) := by
  obtain ⟨-, i, u, hfetch, hexec⟩ := h
  obtain rfl := eq_effect_of_exec hexec
  have heffect := effect_lockstep i.mnemonic i.operand
  obtain ⟨hau, hat⟩ := (usesAnswers_of_fetchInstr hfetch rfl).answered_split (heffect.uses u) ha
  have hlockstep : effect i.mnemonic i.operand (u.inCall c) = (effect i.mnemonic i.operand u).inCall c :=
    congrArg Prod.snd (heffect.inCall u c hat)
  exact ⟨hgo, i, u.inCall c, fetchInstr_inCall hfetch rfl hau c, by rw [exec_eq, hlockstep]⟩

theorem Finishes.usesAnswers {st u : State} {status : ExitStatus} (h : Finishes st status u) : UsesAnswers st u := by
  induction h with
  | leaves hleaves => exact hleaves.usesAnswers
  | runs hruns _ ih => exact hruns.usesAnswers.trans ih

/-- With the same budget the loop ends in every call alike. -/
theorem Finishes.inCall {st u : State} {status : ExitStatus} (h : Finishes st status u) {c : CallFrame}
    (hc : c.further = 0) (ha : AnsweredFromList st u) : Finishes (st.inCall c) status (u.inCall c) := by
  have hstop (s : State) : stopTest (s.inCall c) = stopTest s := by
    simp only [stopTest, State.inCall, hc, add_zero]
  induction h with
  | leaves hleaves => exact .leaves (hleaves.inCall (hstop _) ha)
  | runs hruns hrest ih =>
    obtain ⟨ha₁, ha₂⟩ := hruns.usesAnswers.answered_split hrest.usesAnswers ha
    exact .runs (hruns.inCall ((hstop _).trans hruns.1) ha₁) (ih ha₂)

/-- A call with a smaller budget that ends exhausted ends in a state that the longer run comes through. -/
theorem Finishes.exists_of_exhausted {st u : State} {status : ExitStatus} (h : Finishes st status u) {c : CallFrame}
    (hc : c.further ≤ 0) (ha : AnsweredFromList st u) {v : State} (hshort : Finishes (st.inCall c) .exhausted v) :
    ∃ s, v = s.inCall c ∧ Finishes s status u ∧ AnsweredFromList s u := by
  have hgo_of (s : State) (hgo : stopTest (s.inCall c) = none) : stopTest s = none := by
    rw [stopTest_eq_none_iff] at hgo ⊢
    obtain ⟨hp, hbudget⟩ := hgo
    simp only [State.inCall] at hp hbudget
    exact ⟨hp, by omega⟩
  induction h with
  | @leaves st u status hleaves =>
    cases hgo : stopTest (st.inCall c) with
    | some =>
      obtain ⟨-, rfl⟩ := hshort.of_leaves (.stop hgo)
      exact ⟨st, rfl, .leaves hleaves, ha⟩
    | none =>
      obtain ⟨rfl, -⟩ := hshort.of_leaves (hleaves.inCall (hgo.trans (hgo_of st hgo).symm) ha)
      cases hleaves with
      | stop hstop => cases (hgo_of st hgo).symm.trans hstop
  | @runs st t u status hruns hrest ih =>
    cases hgo : stopTest (st.inCall c) with
    | some =>
      obtain ⟨-, rfl⟩ := hshort.of_leaves (.stop hgo)
      exact ⟨st, rfl, .runs hruns hrest, ha⟩
    | none =>
      obtain ⟨ha₁, ha₂⟩ := hruns.usesAnswers.answered_split hrest.usesAnswers ha
      exact ih ha₂ (hshort.of_runs (hruns.inCall hgo ha₁))

/-! ### Two calls and one -/

/-- Entering a call with the budget shifted is entering it and being in another call. -/
theorem enterCall_inCall (st : State) (n ticks : Int) :
    (enterCall ticks st).inCall ⟨st.record, n, .running n, none, n - ticks⟩ = enterCall n st := by
  simp only [State.inCall, enterCall, add_sub_cancel]

/-- Entering a call right after an exit that left the machine in `s`, with as much budget as `s` has. -/
theorem enterCall_exitCall_inCall (s : State) (c : CallFrame) (ticks n : Int) (status : ExitStatus)
    (hn : n = s.budget) :
    enterCall n (exitCall ticks status (s.inCall c)) = s.inCall ⟨s.work, n, .running n, none, 0⟩ := by
  simp only [State.inCall, enterCall, exitCall, hn, add_zero]

/-- Settles O16: the single call comes through the machine in which the first call ends, and the second call goes on from
there with the budget that the single call has left. -/
theorem callsAddUpWhenTheDebtIsCarried : Obligations.CallsAddUpWhenTheDebtIsCarried := by
  intro st s1 s2 t n1 n2 c1 hidle hn2 h1 hanswer h2 ht htraps
  obtain ⟨status1, u1, hfirst, rfl⟩ := finishes_of_execute hidle h1
  obtain ⟨status2, u2, hsecond, rfl⟩ := finishes_of_execute rfl h2
  obtain ⟨status, u, hsingle, rfl⟩ := finishes_of_execute hidle ht
  cases hanswer
  have hlist : AnsweredFromList (enterCall (n1 + n2) st) u := htraps
  rw [← enterCall_inCall st n1 (n1 + n2)] at hfirst
  obtain ⟨s, rfl, hrest, hlist'⟩ := hsingle.exists_of_exhausted (by show n1 - (n1 + n2) ≤ 0; omega) hlist hfirst
  have hbudget : (s.inCall ⟨st.record, n1, .running n1, none, n1 - (n1 + n2)⟩).budget = s.budget - n2 := by
    show s.budget + (n1 - (n1 + n2)) = s.budget - n2
    omega
  rw [enterCall_exitCall_inCall s _ n1 _ .exhausted (by rw [State.exitCall_tickBudget, hbudget]; omega)] at hsecond
  obtain ⟨rfl, rfl⟩ := hsecond.unique (hrest.inCall rfl hlist')
  refine ⟨?_, _, _, rfl, rfl, rfl, ?_⟩
  · simp only [exitCall, State.inCall, add_zero]
  · simp only [State.exitCall_tickBudget, State.inCall]
    omega

end Sys2Proof.Machine
end
